-- ==== Sys2Proof/Word.lean ====
section
/-! DEFINITION. The two bus types of the BitField Codec: the 64-bit data word and the 17-bit control word. -/

namespace Sys2Proof

/-- A 64-bit data bus or register: `cmd_word`, `cmd_value`, RESULT (spec R7, R21, R24).
Bit 0 is the least significant bit (R8). -/
abbrev Word := BitVec 64

/-- The 17-bit control word `cmd_ctl`: op in bits 2..0, width in bits 9..3, lsb in bits 16..10 (spec R60). -/
abbrev Ctl := BitVec 17

end Sys2Proof
end

