-- ==== Sys2Proof/Syntax.lean ====
section
/-! DEFINITION. The command set: one constructor of `Instr` per row of spec/opcode_table.json, and the three command
buses as they are presented in one cycle. -/

namespace Sys2Proof

/-- One decoded command (spec R63). Every constructor carries all four operand fields of the one command format (R60),
the ones its operation ignores (R65) included, so that no presented bit is lost by decoding (log entry 7). `width` and
`lsb` are the numbers `uint(cmd_ctl[9:3])` and `uint(cmd_ctl[16:10])` (R62). -/
inductive Instr where
  /-- op `0b000`: does an unsigned value fit (R80). -/
  | fitsu (width lsb : Nat) (word value : Word)
  /-- op `0b001`: does a signed value fit (R81). -/
  | fitss (width lsb : Nat) (word value : Word)
  /-- op `0b010`: extract a field, zero-extended (R90). -/
  | getu (width lsb : Nat) (word value : Word)
  /-- op `0b011`: extract a field, sign-extended (R91). -/
  | gets (width lsb : Nat) (word value : Word)
  /-- op `0b100`: replace a field by an unsigned value (R100). -/
  | setu (width lsb : Nat) (word value : Word)
  /-- op `0b101`: replace a field by a signed value (R101). -/
  | sets (width lsb : Nat) (word value : Word)
  /-- op `0b110`: reserved, answers ILLEGAL (R64, R121). -/
  | reserved110 (width lsb : Nat) (word value : Word)
  /-- op `0b111`: reserved, answers ILLEGAL (R64, R121). -/
  | reserved111 (width lsb : Nat) (word value : Word)
deriving DecidableEq, Repr

/-- One presented command: the values sampled on `cmd_ctl`, `cmd_word` and `cmd_value`, 17 + 64 + 64 = 145 bits (R60). -/
structure Command where
  ctl : Ctl
  word : Word
  value : Word
deriving DecidableEq, Repr

end Sys2Proof
end

