-- ==== Sys2Proof/WellFormed.lean ====
section
/-! DEFINITION. Which decoded commands the control word can carry: both numbers fit their 7-bit fields. -/

namespace Sys2Proof

/-- The field width a command names. -/
def Instr.width : Instr → Nat
  | .fitsu w _ _ _ => w
  | .fitss w _ _ _ => w
  | .getu w _ _ _ => w
  | .gets w _ _ _ => w
  | .setu w _ _ _ => w
  | .sets w _ _ _ => w
  | .reserved110 w _ _ _ => w
  | .reserved111 w _ _ _ => w

/-- The field position a command names. -/
def Instr.lsb : Instr → Nat
  | .fitsu _ l _ _ => l
  | .fitss _ l _ _ => l
  | .getu _ l _ _ => l
  | .gets _ l _ _ => l
  | .setu _ l _ _ => l
  | .sets _ l _ _ => l
  | .reserved110 _ l _ _ => l
  | .reserved111 _ l _ _ => l

/-- A command that the 17-bit control word can carry: `width` and `lsb` are 0 to 127 (R60; "a value above 127 cannot be
encoded", R67). Values 65 to 127 are well formed: the codec answers them (R122). -/
abbrev Instr.WellFormed (i : Instr) : Prop := i.width < 128 ∧ i.lsb < 128

end Sys2Proof
end

