-- ==== Sys2Proof/Decode.lean ====
section
/-! DEFINITION. From the command buses to a decoded command and back (spec R60 to R64, R69), and the reading of a command
as one number whose low bits are the control word. -/

namespace Sys2Proof

/-- `width = uint(cmd_ctl[9:3])` (R62). -/
def ctlWidth (ctl : Ctl) : Nat := (ctl.extractLsb' 3 7).toNat

/-- `lsb = uint(cmd_ctl[16:10])` (R62). -/
def ctlLsb (ctl : Ctl) : Nat := (ctl.extractLsb' 10 7).toNat

/-- Decode a presented command. The three bits `op[2] op[1] op[0]` select the row of R63's table; every one of the eight
patterns is a row, so decoding is total (R64). -/
def decode (c : Command) : Instr :=
  match c.ctl.getLsbD 2, c.ctl.getLsbD 1, c.ctl.getLsbD 0 with
  | false, false, false => .fitsu (ctlWidth c.ctl) (ctlLsb c.ctl) c.word c.value
  | false, false, true => .fitss (ctlWidth c.ctl) (ctlLsb c.ctl) c.word c.value
  | false, true, false => .getu (ctlWidth c.ctl) (ctlLsb c.ctl) c.word c.value
  | false, true, true => .gets (ctlWidth c.ctl) (ctlLsb c.ctl) c.word c.value
  | true, false, false => .setu (ctlWidth c.ctl) (ctlLsb c.ctl) c.word c.value
  | true, false, true => .sets (ctlWidth c.ctl) (ctlLsb c.ctl) c.word c.value
  | true, true, false => .reserved110 (ctlWidth c.ctl) (ctlLsb c.ctl) c.word c.value
  | true, true, true => .reserved111 (ctlWidth c.ctl) (ctlLsb c.ctl) c.word c.value

/-- The opcode of each command, `cmd_ctl[2:0]` (R63). -/
def Instr.opcode : Instr → Nat
  | .fitsu _ _ _ _ => 0b000
  | .fitss _ _ _ _ => 0b001
  | .getu _ _ _ _ => 0b010
  | .gets _ _ _ _ => 0b011
  | .setu _ _ _ _ => 0b100
  | .sets _ _ _ _ => 0b101
  | .reserved110 _ _ _ _ => 0b110
  | .reserved111 _ _ _ _ => 0b111

/-- The control word of an opcode, a width and a position: `(L << 10) | (W << 3) | op` (R69). -/
def packCtl (op width lsb : Nat) : Ctl := BitVec.ofNat 17 ((lsb <<< 10) ||| (width <<< 3) ||| op)

/-- The buses that present a well-formed command (R69). -/
def encode : Instr → Command
  | .fitsu w l x v => ⟨packCtl 0b000 w l, x, v⟩
  | .fitss w l x v => ⟨packCtl 0b001 w l, x, v⟩
  | .getu w l x v => ⟨packCtl 0b010 w l, x, v⟩
  | .gets w l x v => ⟨packCtl 0b011 w l, x, v⟩
  | .setu w l x v => ⟨packCtl 0b100 w l, x, v⟩
  | .sets w l x v => ⟨packCtl 0b101 w l, x, v⟩
  | .reserved110 w l x v => ⟨packCtl 0b110 w l, x, v⟩
  | .reserved111 w l x v => ⟨packCtl 0b111 w l, x, v⟩

/-- Why a number is not a command. -/
inductive DecodeError where
  /-- Raised by `decodeNumber`: the number has a bit at position 145 or above, or above the stated length; there is one
  command length, 145 bits (R61). Safe: such a number is no command. -/
  | tooManyBits
deriving DecidableEq, Repr

/-- A command read from one number, bit 0 the least significant bit of `cmd_ctl`: bits 16..0 are `cmd_ctl`, bits 80..17
`cmd_word`, bits 144..81 `cmd_value` (R60's order of the buses; DESIGN CHOICE, log entry 3). -/
def commandOfNumber (w : Nat) : Command :=
  ⟨BitVec.ofNat 17 w, BitVec.ofNat 64 (w / 2 ^ 17), BitVec.ofNat 64 (w / 2 ^ 81)⟩

/-- The number of a command, the inverse of `commandOfNumber`. -/
def numberOfCommand (c : Command) : Nat := c.ctl.toNat + 2 ^ 17 * c.word.toNat + 2 ^ 81 * c.value.toNat

/-- Decode a number of `nbits` bits: refused by name when it is no command. -/
def decodeNumber (nbits w : Nat) : Except DecodeError Instr :=
  if w < 2 ^ nbits ∧ w < 2 ^ 145 then .ok (decode (commandOfNumber w)) else .error .tooManyBits

/-- The instruction the decoder reads from an instruction whose bits are `w`, numbered as the opcode table numbers them. -/
def decodeTableWord (nbits w : Nat) : Option Instr :=
  match decodeNumber nbits w with
  | .ok i => some i
  | .error _ => none

end Sys2Proof
end

