-- ==== Sys2Proof/Config.lean ====
section
/-! DEFINITION. What the spec leaves open, as constants without a value.

R7 fixes every parameter (64-bit word, 7-bit `width` and `lsb` fields, 3-bit opcode, 17-bit control word, one command per
cycle, 3 sticky bits, 2-bit error code), so those are literals in the types and definitions; the one OPEN parameter is
`POWERUP_STATE`, the four registers before the first reset edge (R142, decision D17, log entry 5). -/

namespace Sys2Proof.Config

/-- `POWERUP_STATE`, RESULT: any value (R142). -/
opaque powerUpResult : BitVec 64

/-- `POWERUP_STATE`, ERR: any value (R142). -/
opaque powerUpErr : BitVec 2

/-- `POWERUP_STATE`, STICKY: any value (R142). -/
opaque powerUpSticky : BitVec 3

/-- `POWERUP_STATE`, RSP_VALID: any value (R142). -/
opaque powerUpRspValid : BitVec 1

end Sys2Proof.Config
end

