-- ==== Sys2Proof/Machine/State.lean ====
section
/-! DEFINITION. The state of one codec instance (spec R24, R36) with the host's drive of the command port beside it, the
ways a step can stop, and the machine right after reset (R35). -/

namespace Sys2Proof.Machine

/-- What the host puts on a 64-bit command bus in one cycle (R67, R69): a value, or the token `RES`, the value on
`rsp_result` in the cycle the command is presented (R22, R144). -/
inductive BusDrive where
  | bits (v : Word)
  | rspResult
deriving DecidableEq, Repr

/-- What the host drives on the block's input ports in one clock cycle (R21): `rst_n`, `cmd_valid` and the three command
buses. The buses carry some value in a reset or idle cycle too; the block ignores it there (R30, R140). -/
structure HostCycle where
  rstN : Bool
  cmdValid : Bool
  cmdCtl : Ctl
  cmdWord : BusDrive
  cmdValue : BusDrive
deriving DecidableEq, Repr

/-- The input of one step, one rising edge of `clk` (R36). -/
inductive Input where
  | reset
  | idle
  | cmd (c : Command)
deriving DecidableEq, Repr

/-- The block's output ports (R21). -/
structure Outputs where
  rspValid : BitVec 1
  rspResult : Word
  rspErr : BitVec 2
  sticky : BitVec 3
deriving DecidableEq, Repr

/-- The complete state of one codec instance, the four registers of R24 and R36, and the host. The block has no other
state: no register file, program counter, memory or hidden state (R22, R23, R32 to R34). -/
structure State where
  /-- RESULT, 64 bits: the result of the last command, 0 after an error (R25). -/
  result : BitVec 64
  /-- ERR, 2 bits: the error code of the last command (R26). -/
  err : BitVec 2
  /-- STICKY, 3 bits: [0] OVF_S, [1] PRE_S, [2] ILL_S (R27). -/
  sticky : BitVec 3
  /-- RSP_VALID, 1 bit: 1 in the one cycle after an accepted command (R28). -/
  rspValid : BitVec 1
  /-- The model's own field, not a register of the block: what the other agent, the host (R20), will drive at the coming
  rising edges, the next edge first (log entry 1). -/
  host : List HostCycle
deriving DecidableEq, Repr

/-- What would stop the machine with a fault. There is nothing: every error is an ordinary response and the next command
is accepted as usual (R127), so the type has no constructor (log entry 11). -/
inductive Fault where
deriving DecidableEq, Repr

/-- What would stop a step for want of a meaning. -/
inductive Refusal where
  /-- Raised by an arm of `exec` whose instruction has no meaning yet, and by nothing else; no arm raises it in this
  model, which gives every row its meaning. Safe: the machine stops where the hardware goes on. -/
  | notModelled (mnemonic : String)
deriving DecidableEq, Repr

/-- The machine right after reset (R35, R140): all four registers 0. The host drives nothing yet, and the block waits for
its first command (R41, R141; log entry 2). -/
def State.reset : State where
  result := 0x0000000000000000#64
  err := 0b00#2
  sticky := 0b000#3
  rspValid := 0#1
  host := []

/-- The machine before the first reset edge: the four registers at the open parameter `POWERUP_STATE` (R142; log entry 5),
with a host that drives `host`. -/
def State.powerUp (host : List HostCycle) : State where
  result := Config.powerUpResult
  err := Config.powerUpErr
  sticky := Config.powerUpSticky
  rspValid := Config.powerUpRspValid
  host := host

end Sys2Proof.Machine
end

