-- ==== Sys2Proof/Machine/Flags.lean ====
section
/-! DEFINITION. The error codes of ERR, the sticky bits of STICKY, and their named accessors (spec R26, R27, R120). -/

namespace Sys2Proof.Machine

/-- The four outcomes of a command (R120). -/
inductive ErrCode where
  | ok
  | overflow
  | precondition
  | illegal
deriving DecidableEq, Repr

/-- The code written to ERR (R26, R120). -/
def ErrCode.code : ErrCode → BitVec 2
  | .ok => 0b00#2
  | .overflow => 0b01#2
  | .precondition => 0b10#2
  | .illegal => 0b11#2

/-- The sticky bit an outcome sets: [0] OVF_S, [1] PRE_S, [2] ILL_S (R27, R29, R120). -/
def ErrCode.stickyMask : ErrCode → BitVec 3
  | .ok => 0b000#3
  | .overflow => 0b001#3
  | .precondition => 0b010#3
  | .illegal => 0b100#3

/-- STICKY[0], OVF_S (R27). -/
def State.ovfS (s : State) : Bool := s.sticky.getLsbD 0

/-- STICKY[1], PRE_S (R27). -/
def State.preS (s : State) : Bool := s.sticky.getLsbD 1

/-- STICKY[2], ILL_S (R27). -/
def State.illS (s : State) : Bool := s.sticky.getLsbD 2

end Sys2Proof.Machine
end

