-- ==== Sys2Proof/Machine/Operands.lean ====
section
/-! DEFINITION. How the codec reads its operands (spec R9, R62) and the bit-field primitives every rule uses (R10), written
as the spec writes them. -/

namespace Sys2Proof.Machine

/-- `uint(x)`, the unsigned reading of a bus (R9). -/
def uint (x : Word) : Nat := x.toNat

/-- `sint(x) = uint(x) - 2^64 * x[63]`, the two's-complement reading of a bus (R9). -/
def sint (x : Word) : Int := (uint x : Int) - 2 ^ 64 * (if x.getLsbD 63 then 1 else 0)

/-- `bits64(v) = v mod 2^64`, the bus value of an integer (R9). -/
def bits64 (v : Int) : Word := BitVec.ofInt 64 v

/-- `mask(w)` for w in 0..64: bits w-1..0 are 1 (R10). -/
def mask (w : Nat) : Word := BitVec.ofNat 64 (2 ^ w - 1)

/-- `shl(x, n)`: `(uint(x) * 2^n) mod 2^64` when `n < 64`, and 0 when `n ≥ 64`, enforced explicitly (R10; U3). -/
def shl (x : Word) (n : Nat) : Word := if n < 64 then BitVec.ofNat 64 (uint x * 2 ^ n) else 0#64

/-- `shr(x, n)`: `floor(uint(x) / 2^n)` when `n < 64`, and 0 when `n ≥ 64`, enforced explicitly (R10; U3). -/
def shr (x : Word) (n : Nat) : Word := if n < 64 then BitVec.ofNat 64 (uint x / 2 ^ n) else 0#64

/-- `zext_64(v)` of a one-bit truth value (R10): 1 for true, 0 for false. -/
def zext64 (b : Bool) : Word := if b then 1#64 else 0#64

/-- `sext_64(f, w)`: the complement of `mask(w)` is filled with ones when bit `w - 1` of `f` is 1; 0 at `w = 0` (R10;
decision D13). -/
def sext64 (f : Word) (w : Nat) : Word :=
  if w = 0 then 0#64 else if f.getLsbD (w - 1) then f ||| ~~~(mask w) else f

/-- FITSU and FITSS break their precondition (R122): `width > 64`. -/
def widthViolation (width : Nat) : Bool := decide (width > 64)

/-- GETU, GETS, SETU and SETS break their precondition (R122): `width > 64`, or `lsb > 64 - width`. -/
def fieldViolation (width lsb : Nat) : Bool := decide (width > 64) || decide (lsb > 64 - width)

/-- The `fits` expression of R80: the unsigned reading is below `2^width`, and every value fits at width 64. -/
def fitsUnsigned (width : Nat) (value : Word) : Bool := width == 64 || decide (uint value < 2 ^ width)

/-- The `fits` expression of R81 (`FITSS_pred` of R101), on the signed reading. -/
def fitsSigned (width : Nat) (value : Word) : Bool :=
  if width = 64 then true
  else if width = 0 then decide (sint value = 0)
  else decide (-(2 : Int) ^ (width - 1) ≤ sint value) && decide (sint value < (2 : Int) ^ (width - 1))

/-- The field of a word: `shr(word, lsb) & mask(width)` (R90, R91). -/
def getField (width lsb : Nat) (word : Word) : Word := shr word lsb &&& mask width

/-- A word with the field replaced: `(word & ~shl(mask(width), lsb)) | shl(f, lsb)` (R100, R101). -/
def setField (width lsb : Nat) (word f : Word) : Word := (word &&& ~~~(shl (mask width) lsb)) ||| shl f lsb

end Sys2Proof.Machine
end

