-- ==== Sys2Proof/Machine/Ops.lean ====
section
/-! DEFINITION. The shared operations on the state: answering a command (R29) or an error (R10, R123), the reset edge
(R140), the idle edge (R30), sampling the command port (R29, R36, R144) and reading the output ports (R21). The block has
no memory, so there is no memory operation (R33, R40), and no trap return (R128). -/

namespace Sys2Proof.Machine

/-- The pair `(r, e)` a command computes (R29, R66). -/
structure Response where
  result : Word
  err : ErrCode
deriving DecidableEq, Repr

/-- `raise Overflow`, `raise Precondition`, `raise Illegal`: the response `(0, code)` (R10, R120, R123). It is the one way
an error is taken: nothing is saved, no mode changes and the block goes on (R127). -/
def raise (e : ErrCode) : Response := ⟨0#64, e⟩

/-- `respond(r, e)`: the four register writes of an accepted command, at one edge (R10, R29, R47). -/
def respond (r : Response) (s : State) : State :=
  { s with
    result := r.result
    err := r.err.code
    sticky := s.sticky ||| r.err.stickyMask
    rspValid := 1#1 }

/-- A command completes at the edge that accepts it (R29, R34). -/
def complete (r : Response) (s : State) : Host.Outcome State Fault Refusal := .next (respond r s)

/-- A rising edge with `rst_n = 0` (R140): the reset values of R35, whatever the command port carries. -/
def resetEdge (s : State) : State :=
  { s with result := 0#64, err := 0b00#2, sticky := 0b000#3, rspValid := 0#1 }

/-- A rising edge with `rst_n = 1` and `cmd_valid = 0` (R30). -/
def idleEdge (s : State) : State := { s with rspValid := 0#1 }

/-- The value on a bus the host drives, where `rsp_result` shows `rspResult` (R144). -/
def BusDrive.sample (rspResult : Word) : BusDrive → Word
  | .bits v => v
  | .rspResult => rspResult

/-- The three command buses sampled at an edge (R29). -/
def HostCycle.command (rspResult : Word) (h : HostCycle) : Command :=
  ⟨h.cmdCtl, h.cmdWord.sample rspResult, h.cmdValue.sample rspResult⟩

/-- What one rising edge is for the block: reset before everything, then idle, then a command (R36, R140). -/
def HostCycle.input (rspResult : Word) (h : HostCycle) : Input :=
  if h.rstN = false then .reset
  else if h.cmdValid = false then .idle
  else .cmd (h.command rspResult)

/-- The input of the next edge. A host that drives nothing more leaves the block idle (R41, R136; log entry 2). -/
def nextInput (s : State) : Input :=
  match s.host with
  | [] => .idle
  | h :: _ => h.input s.result

/-- The host's drive of one cycle is used up by one edge. -/
def advanceHost (s : State) : State := { s with host := s.host.tail }

/-- The host presents one command, with fixed bus values, at the next edge (R69). -/
def presentCommand (c : Command) (s : State) : State :=
  { s with host := ⟨true, true, c.ctl, .bits c.word, .bits c.value⟩ :: s.host }

/-- Reading the output ports: each is driven by its register, and reading changes nothing (R21, R48). -/
def State.outputs (s : State) : Outputs := ⟨s.rspValid, s.result, s.err, s.sticky⟩

end Sys2Proof.Machine
end

