-- ==== Sys2Proof/Machine/Fits.lean ====
section
/-! DEFINITION. The fits family: FITSU (R80) and FITSS (R81). -/

namespace Sys2Proof.Machine

/-- `FITSU(width, value)` (R80). A value that does not fit is an answer, not an error. -/
def fitsuResponse (width : Nat) (value : Word) : Response :=
  if widthViolation width then raise .precondition
  else ⟨zext64 (fitsUnsigned width value), .ok⟩

/-- `FITSS(width, value)` (R81). -/
def fitssResponse (width : Nat) (value : Word) : Response :=
  if widthViolation width then raise .precondition
  else ⟨zext64 (fitsSigned width value), .ok⟩

/-- FITSU: `lsb` and `cmd_word` are ignored (R65, R80). -/
def execFitsu (width _lsb : Nat) (_word value : Word) (s : State) : Host.Outcome State Fault Refusal :=
  complete (fitsuResponse width value) s

/-- FITSS: `lsb` and `cmd_word` are ignored (R65, R81). -/
def execFitss (width _lsb : Nat) (_word value : Word) (s : State) : Host.Outcome State Fault Refusal :=
  complete (fitssResponse width value) s

end Sys2Proof.Machine
end

