-- ==== Sys2Proof/Machine/Get.lean ====
section
/-! DEFINITION. The get family: GETU (R90) and GETS (R91). -/

namespace Sys2Proof.Machine

/-- `GETU(width, lsb, word)` (R90). -/
def getuResponse (width lsb : Nat) (word : Word) : Response :=
  if fieldViolation width lsb then raise .precondition
  else ⟨getField width lsb word, .ok⟩

/-- `GETS(width, lsb, word)` (R91): the field, sign-extended from its top bit; 0 at width 0 (decision D13). -/
def getsResponse (width lsb : Nat) (word : Word) : Response :=
  if fieldViolation width lsb then raise .precondition
  else ⟨sext64 (getField width lsb word) width, .ok⟩

/-- GETU: `cmd_value` is ignored (R65, R90). -/
def execGetu (width lsb : Nat) (word _value : Word) (s : State) : Host.Outcome State Fault Refusal :=
  complete (getuResponse width lsb word) s

/-- GETS: `cmd_value` is ignored (R65, R91). -/
def execGets (width lsb : Nat) (word _value : Word) (s : State) : Host.Outcome State Fault Refusal :=
  complete (getsResponse width lsb word) s

end Sys2Proof.Machine
end

