-- ==== Sys2Proof/Machine/Reserved.lean ====
section
/-! DEFINITION. The two reserved opcodes: both answer `(0, ILLEGAL)` without looking at an operand (R64, R121). -/

namespace Sys2Proof.Machine

/-- op `0b110` (R121). -/
def execReserved110 (_width _lsb : Nat) (_word _value : Word) (s : State) : Host.Outcome State Fault Refusal :=
  complete (raise .illegal) s

/-- op `0b111` (R121). -/
def execReserved111 (_width _lsb : Nat) (_word _value : Word) (s : State) : Host.Outcome State Fault Refusal :=
  complete (raise .illegal) s

end Sys2Proof.Machine
end

