-- ==== Sys2Proof/Machine/Set.lean ====
section
/-! DEFINITION. The set family: SETU (R100) and SETS (R101). PRECONDITION is checked before OVERFLOW (R125). -/

namespace Sys2Proof.Machine

/-- `SETU(width, lsb, word, value)` (R100): the whole value is placed, and it is never truncated. -/
def setuResponse (width lsb : Nat) (word value : Word) : Response :=
  if fieldViolation width lsb then raise .precondition
  else if !fitsUnsigned width value then raise .overflow
  else ⟨setField width lsb word value, .ok⟩

/-- `SETS(width, lsb, word, value)` (R101): the low `width` bits of the two's-complement pattern are placed. -/
def setsResponse (width lsb : Nat) (word value : Word) : Response :=
  if fieldViolation width lsb then raise .precondition
  else if !fitsSigned width value then raise .overflow
  else ⟨setField width lsb word (value &&& mask width), .ok⟩

/-- SETU uses every operand (R65, R100). -/
def execSetu (width lsb : Nat) (word value : Word) (s : State) : Host.Outcome State Fault Refusal :=
  complete (setuResponse width lsb word value) s

/-- SETS uses every operand (R65, R101). -/
def execSets (width lsb : Nat) (word value : Word) (s : State) : Host.Outcome State Fault Refusal :=
  complete (setsResponse width lsb word value) s

end Sys2Proof.Machine
end

