-- ==== Sys2Proof/Machine/Dispatch.lean ====
section
/-! DEFINITION. The dispatch: one arm per command of the opcode table (R63, R66). -/

namespace Sys2Proof.Machine

def exec (i : Instr) (s : State) : Host.Outcome State Fault Refusal :=
  match i with
  | .fitsu width lsb word value => Sys2Proof.Machine.execFitsu width lsb word value s
  | .fitss width lsb word value => Sys2Proof.Machine.execFitss width lsb word value s
  | .getu width lsb word value => Sys2Proof.Machine.execGetu width lsb word value s
  | .gets width lsb word value => Sys2Proof.Machine.execGets width lsb word value s
  | .setu width lsb word value => Sys2Proof.Machine.execSetu width lsb word value s
  | .sets width lsb word value => Sys2Proof.Machine.execSets width lsb word value s
  | .reserved110 width lsb word value => Sys2Proof.Machine.execReserved110 width lsb word value s
  | .reserved111 width lsb word value => Sys2Proof.Machine.execReserved111 width lsb word value s

end Sys2Proof.Machine
end

