-- ==== Sys2Proof/Machine/Step.lean ====
section
/-! DEFINITION. One step: one rising edge of `clk` (R36). -/

namespace Sys2Proof.Machine

/-- One rising edge. The input is reset, idle or a command, in that order of precedence (R36); a command is decoded and
run on the registers as they stood before the edge (R29, R66). -/
def step (s : State) : Host.Outcome State Fault Refusal :=
  match nextInput s with
  | .reset => .next (resetEdge (advanceHost s))
  | .idle => .next (idleEdge (advanceHost s))
  | .cmd c => exec (decode c) (advanceHost s)

/-- `s` with the command whose bits are `w` presented at the next rising edge, before whatever the host drives after it
(log entry 3). -/
def State.withFetchWord (s : State) (nbits w : Nat) : State :=
  presentCommand (commandOfNumber (w % 2 ^ nbits)) s

end Sys2Proof.Machine
end

