-- ==== Sys2Proof/Machine/Codec.lean ====
section
/-! DEFINITION. The one function every accepted command runs, `exec(cmd_ctl, cmd_word, cmd_value) -> (result, err)`, as R66
writes it. It reads no register. The step goes through `decode` and `exec`; the transaction level goes through this. -/

namespace Sys2Proof.Machine

/-- R66's dispatch on `op = ctl[2:0]`. -/
def codecResponse (c : Command) : Response :=
  let op := (c.ctl.extractLsb' 0 3).toNat
  let width := ctlWidth c.ctl
  let lsb := ctlLsb c.ctl
  if op = 0b000 then fitsuResponse width c.value
  else if op = 0b001 then fitssResponse width c.value
  else if op = 0b010 then getuResponse width lsb c.word
  else if op = 0b011 then getsResponse width lsb c.word
  else if op = 0b100 then setuResponse width lsb c.word c.value
  else if op = 0b101 then setsResponse width lsb c.word c.value
  else raise .illegal

end Sys2Proof.Machine
end

