-- ==== Sys2Proof/Machine/Transaction.lean ====
section
/-! DEFINITION. The transaction-level model of R36: the tuple (RESULT, ERR, STICKY), one step per command, without idle
steps and without RSP_VALID. -/

namespace Sys2Proof.Machine

/-- The tuple a transaction-level model keeps (R36). -/
structure TxnState where
  result : BitVec 64
  err : BitVec 2
  sticky : BitVec 3
deriving DecidableEq, Repr

/-- The input of one transaction-level step: a reset or a command, its buses as the host drives them. -/
inductive TxnInput where
  | reset
  | cmd (ctl : Ctl) (word value : BusDrive)
deriving DecidableEq, Repr

/-- The tuple of a cycle-level state. -/
def State.txn (s : State) : TxnState := ⟨s.result, s.err, s.sticky⟩

/-- The transaction of one host cycle: idle cycles are dropped (R36). -/
def HostCycle.txn (h : HostCycle) : Option TxnInput :=
  if h.rstN = false then some .reset
  else if h.cmdValid = false then none
  else some (.cmd h.cmdCtl h.cmdWord h.cmdValue)

/-- One transaction (R29 without RSP_VALID, R140). `RES` is the RESULT of the last command (R144). -/
def txnStep (s : TxnState) : TxnInput → TxnState
  | .reset => ⟨0#64, 0b00#2, 0b000#3⟩
  | .cmd ctl word value =>
    let r := codecResponse ⟨ctl, word.sample s.result, value.sample s.result⟩
    ⟨r.result, r.err.code, s.sticky ||| r.err.stickyMask⟩

/-- The tuple after each command, in order (R36). -/
def txnTrace (s : TxnState) : List TxnInput → List TxnState
  | [] => []
  | .reset :: rest => txnTrace (txnStep s .reset) rest
  | .cmd ctl word value :: rest =>
    txnStep s (.cmd ctl word value) :: txnTrace (txnStep s (.cmd ctl word value)) rest

end Sys2Proof.Machine
end

