-- ==== Sys2Proof/Machine/Run.lean ====
section
/-! DEFINITION. A run and its observation (R148), and several instances side by side (R134). -/

namespace Sys2Proof.Machine

/-- The tuple (RESULT, ERR, STICKY) after each command accepted in the next `n` edges, in acceptance order. An edge accepted
a command exactly when RSP_VALID is 1 after it (R28; log entry 15). -/
def commandTrace : Nat → State → List TxnState
  | 0, _ => []
  | n + 1, s =>
    match step s with
    | .next t => if t.rspValid = 1#1 then t.txn :: commandTrace n t else commandTrace n t
    | .fault _ => []
    | .refused _ => []

/-- What is observed of a run (R148): the pair (RESULT, ERR) of each accepted command, and STICKY after the last. -/
structure Observation where
  responses : List (BitVec 64 × BitVec 2)
  sticky : BitVec 3
deriving DecidableEq, Repr

/-- The observation of the run of R148: a reset, then the cycles the host drives. DESIGN CHOICE (log entry 16): R148's
cycles are idle or carry one command, and where a reset cycle stands among them the responses on both sides are joined and
STICKY is the one after the last command, even where a reset edge follows it. -/
def observe (cycles : List HostCycle) : Observation :=
  let trace := commandTrace cycles.length { State.reset with host := cycles }
  { responses := trace.map fun t => (t.result, t.err)
    sticky := match trace.getLast? with
      | some t => t.sticky
      | none => State.reset.sticky }

/-- One edge of several instances: each takes its own step, and they share nothing (R134; log entry 14). -/
def stepInstances : List State → Host.Outcome (List State) Fault Refusal
  | [] => .next []
  | s :: rest =>
    match step s with
    | .next t =>
      match stepInstances rest with
      | .next ts => .next (t :: ts)
      | .fault r => .fault r
      | .refused r => .refused r
    | .fault r => .fault r
    | .refused r => .refused r

end Sys2Proof.Machine
end

