-- ==== Sys2Proof/Machine/Assembler.lean ====
section
/-! DEFINITION. The host-side notation for command sequences (R67 to R69, R12): a line as a term, the cycle it drives, and
the reading of a line's characters. It is no part of the hardware (decision D20; log entry 12). -/

namespace Sys2Proof.Machine

/-- An operand `X` or `V` of a line: an integer, or `RES` (R67). -/
inductive BusToken where
  | int (v : Int)
  | res
deriving DecidableEq, Repr

/-- A line of the host notation (R67): `w` and `l` are the numbers as written, which may be out of range. -/
inductive Line where
  | fitsu (w : Nat) (v : BusToken)
  | fitss (w : Nat) (v : BusToken)
  | getu (w l : Nat) (x : BusToken)
  | gets (w l : Nat) (x : BusToken)
  | setu (w l : Nat) (x v : BusToken)
  | sets (w l : Nat) (x v : BusToken)
  | rsvd6 (w l : Nat) (x v : BusToken)
  | rsvd7 (w l : Nat) (x v : BusToken)
  | idle
deriving DecidableEq, Repr

/-- What a token drives: an integer from -2^63 to 2^64 - 1 as its bus value, `RES` as `rsp_result`; any other integer is an
error of the notation (R67). -/
def BusToken.drive : BusToken → Option BusDrive
  | .int v => if -(2 : Int) ^ 63 ≤ v ∧ v < (2 : Int) ^ 64 then some (.bits (bits64 v)) else none
  | .res => some .rspResult

/-- The cycle of a command line (R69), or `none` where the line is an error of the notation (R67). -/
def commandCycle (op w l : Nat) (x v : BusToken) : Option HostCycle :=
  match x.drive, v.drive with
  | some dx, some dv => if w ≤ 127 ∧ l ≤ 127 then some ⟨true, true, packCtl op w l, dx, dv⟩ else none
  | _, _ => none

/-- The cycle of `idle`: `cmd_valid = 0` (R67, R68). -/
def idleCycle : HostCycle := ⟨true, false, 0#17, .bits 0#64, .bits 0#64⟩

/-- A cycle with `rst_n = 0` and no command (R140), with which a program of 95_test_vectors.md starts. -/
def resetCycle : HostCycle := ⟨false, false, 0#17, .bits 0#64, .bits 0#64⟩

/-- The cycle a line drives. FITS lines drive `lsb = 0` and `cmd_word = 0`, GET lines `cmd_value = 0` (R67). -/
def Line.cycle : Line → Option HostCycle
  | .fitsu w v => commandCycle 0b000 w 0 (.int 0) v
  | .fitss w v => commandCycle 0b001 w 0 (.int 0) v
  | .getu w l x => commandCycle 0b010 w l x (.int 0)
  | .gets w l x => commandCycle 0b011 w l x (.int 0)
  | .setu w l x v => commandCycle 0b100 w l x v
  | .sets w l x v => commandCycle 0b101 w l x v
  | .rsvd6 w l x v => commandCycle 0b110 w l x v
  | .rsvd7 w l x v => commandCycle 0b111 w l x v
  | .idle => some idleCycle

/-- The cycles of a program, one line per cycle; `none` if a line is an error of the notation. -/
def programCycles : List Line → Option (List HostCycle)
  | [] => some []
  | line :: rest =>
    match line.cycle, programCycles rest with
    | some h, some hs => some (h :: hs)
    | _, _ => none

/-- A blank character of a line. -/
def isBlank (c : Char) : Bool := c == ' ' || c == '\t'

/-- A word without the blanks around it. -/
def trimBlanks (cs : List Char) : List Char :=
  ((cs.dropWhile isBlank).reverse.dropWhile isBlank).reverse

/-- A line without its comment: `;` starts one that runs to the end of the line (R67). -/
def dropComment (cs : List Char) : List Char := cs.takeWhile (· != ';')

/-- The lower-case form of a letter, for the case-insensitive mnemonics (R67). -/
def lowerChar (c : Char) : Char :=
  if 65 ≤ c.toNat ∧ c.toNat ≤ 90 then Char.ofNat (c.toNat + 32) else c

/-- The value of a digit character, in either case for the hexadecimal letters. -/
def digitValue (c : Char) : Option Nat :=
  let n := c.toNat
  if 48 ≤ n ∧ n ≤ 57 then some (n - 48)
  else if 65 ≤ n ∧ n ≤ 70 then some (n - 55)
  else if 97 ≤ n ∧ n ≤ 102 then some (n - 87)
  else none

/-- Read digits of a base, most significant first, onto the value `acc` read so far. -/
def readDigits (base : Nat) : List Char → Nat → Option Nat
  | [], acc => some acc
  | c :: cs, acc =>
    match digitValue c with
    | some d => if d < base then readDigits base cs (base * acc + d) else none
    | none => none

/-- Digits of a base where `_` only groups (R12); at least one digit. DESIGN CHOICE (log entry 12): R12 does not say where
`_` may stand, and every `_` after the prefix or the sign is dropped, a leading, a trailing and a repeated one too. -/
def readGrouped (base : Nat) (cs : List Char) : Option Nat :=
  match cs.filter (· != '_') with
  | [] => none
  | d :: ds => readDigits base (d :: ds) 0

/-- A natural number as R12 spells it: `0x` hexadecimal, `0b` binary, a bare number decimal. DESIGN CHOICE (log entry 12):
it reads `W` and `L` too, so they may be binary, where R67 names decimal and hexadecimal for them and decision D20 says
that numbers are spelled as in R12. -/
def readNat : List Char → Option Nat
  | '0' :: 'x' :: ds => readGrouped 16 ds
  | '0' :: 'b' :: ds => readGrouped 2 ds
  | cs => readGrouped 10 cs

/-- An operand `X` or `V`: `RES`, a number, or a negative decimal (R12, R67). -/
def readToken : List Char → Option BusToken
  | ['R', 'E', 'S'] => some .res
  | '-' :: ds => (readGrouped 10 ds).map fun n => .int (-(n : Int))
  | cs => (readNat cs).map fun n => .int (n : Int)

/-- The parts of a word between the commas. -/
def splitCommas (cs : List Char) : List (List Char) :=
  cs.foldr (fun c parts => if c == ',' then [] :: parts
    else match parts with
      | [] => [[c]]
      | p :: ps => (c :: p) :: ps) [[]]

/-- The operands of a FITS line: `W, V`. -/
def readFits (mk : Nat → BusToken → Line) : List (List Char) → Option Line
  | [w, v] =>
    match readNat w, readToken v with
    | some w, some v => some (mk w v)
    | _, _ => none
  | _ => none

/-- The operands of a GET line: `W, L, X`. -/
def readGet (mk : Nat → Nat → BusToken → Line) : List (List Char) → Option Line
  | [w, l, x] =>
    match readNat w, readNat l, readToken x with
    | some w, some l, some x => some (mk w l x)
    | _, _, _ => none
  | _ => none

/-- The operands of a SET or reserved line: `W, L, X, V`. -/
def readSet (mk : Nat → Nat → BusToken → BusToken → Line) : List (List Char) → Option Line
  | [w, l, x, v] =>
    match readNat w, readNat l, readToken x, readToken v with
    | some w, some l, some x, some v => some (mk w l x v)
    | _, _, _, _ => none
  | _ => none

/-- Read a line of the notation from its characters (R67); `none` where it is not a command or `idle`. -/
def readLine (cs : List Char) : Option Line :=
  let body := trimBlanks (dropComment cs)
  let name := (body.takeWhile fun c => !isBlank c).map lowerChar
  let rest := trimBlanks (body.dropWhile fun c => !isBlank c)
  let operands := (splitCommas rest).map trimBlanks
  if name = ['f', 'i', 't', 's', 'u'] then readFits .fitsu operands
  else if name = ['f', 'i', 't', 's', 's'] then readFits .fitss operands
  else if name = ['g', 'e', 't', 'u'] then readGet .getu operands
  else if name = ['g', 'e', 't', 's'] then readGet .gets operands
  else if name = ['s', 'e', 't', 'u'] then readSet .setu operands
  else if name = ['s', 'e', 't', 's'] then readSet .sets operands
  else if name = ['r', 's', 'v', 'd', '6'] then readSet .rsvd6 operands
  else if name = ['r', 's', 'v', 'd', '7'] then readSet .rsvd7 operands
  else if name = ['i', 'd', 'l', 'e'] ∧ rest = [] then some .idle
  else none

end Sys2Proof.Machine
end

