-- ==== Sys2Proof/Safety.lean ====
section
/-! DEFINITION. What counts as a safe run of the codec, in the terms claims use. The block itself never stops (R127): an
unsafe run is one in which the HOST is at fault, and the sticky bits say so. -/

namespace Sys2Proof.Machine

/-- The host's command stream is at fault since the last reset: it broke a precondition (PRE_S; R122, U1) or used a reserved
opcode (ILL_S; U2). -/
abbrev State.HostFault (s : State) : Prop := s.preS = true ∨ s.illS = true

/-- Some command since the last reset ended in an error, so a host that follows the source discards every RESULT of the
operation (R129). -/
abbrev State.MustDiscard (s : State) : Prop := s.ovfS = true ∨ s.preS = true ∨ s.illS = true

/-- What every step leaves true of the registers: an error's RESULT is 0 (R123), and an error in ERR has its sticky bit set
(R27, R120). It rules out register values that only a power-up can show (R142). -/
abbrev State.Coherent (s : State) : Prop :=
  (s.err ≠ 0b00#2 → s.result = 0#64) ∧
  (s.err = 0b01#2 → s.ovfS = true) ∧
  (s.err = 0b10#2 → s.preS = true) ∧
  (s.err = 0b11#2 → s.illS = true)

/-- A legal command of the source (R4): one of the six operations with its precondition met (R122). -/
def legalCommand : Instr → Bool
  | .fitsu w _ _ _ => !widthViolation w
  | .fitss w _ _ _ => !widthViolation w
  | .getu w l _ _ => !fieldViolation w l
  | .gets w l _ _ => !fieldViolation w l
  | .setu w l _ _ => !fieldViolation w l
  | .sets w l _ _ => !fieldViolation w l
  | .reserved110 _ _ _ _ => false
  | .reserved111 _ _ _ _ => false

end Sys2Proof.Machine
end

