-- ==== Sys2Proof/Certificates/Slice0/Obligations.lean ====
section
/-! DEFINITION. The statements for the provers, from the spec's numbered rules. -/

open Sys2Proof Sys2Proof.Machine

/-! ## Reset, idle and command edges -/

/-- R35: the four registers after reset. -/
def Obligations.ResetStateHoldsTheStatedValues : Prop :=
  State.reset.result = 0x0000000000000000#64 ∧ State.reset.err = 0b00#2 ∧ State.reset.sticky = 0b000#3 ∧
  State.reset.rspValid = 0#1

/-- R140: a rising edge with `rst_n = 0` writes the reset values whatever is presented, a command at that edge gets no
response, and no other edge clears a sticky bit. -/
def Obligations.ResetEdgeWritesResetValuesAndAloneClearsSticky : Prop :=
  (∀ (s : State) (h : HostCycle) (rest : List HostCycle), s.host = h :: rest → h.rstN = false →
    step s = .next { result := 0#64, err := 0b00#2, sticky := 0b000#3, rspValid := 0#1, host := rest }) ∧
  (∀ (s t : State) (i : Nat), step s = .next t → s.sticky.getLsbD i = true → t.sticky.getLsbD i = false →
    ∃ h rest, s.host = h :: rest ∧ h.rstN = false)

/-- R30: a rising edge with `rst_n = 1` and `cmd_valid = 0` clears RSP_VALID and nothing else, whatever the buses carry. -/
def Obligations.IdleEdgeClearsOnlyRspValid : Prop :=
  ∀ (s : State) (h : HostCycle) (rest : List HostCycle), s.host = h :: rest → h.rstN = true → h.cmdValid = false →
    step s = .next { result := s.result, err := s.err, sticky := s.sticky, rspValid := 0#1, host := rest }

/-- The model's choice (log entry 2), resting on R41 "After reset the block waits for its first command": where the host
drives nothing more, an edge is idle. -/
def Obligations.SilentHostLeavesTheBlockIdle : Prop :=
  ∀ s : State, s.host = [] →
    step s = .next { result := s.result, err := s.err, sticky := s.sticky, rspValid := 0#1, host := [] }

/-- R29: an accepted command's four register writes, all at the edge that accepts it. The response is R66's function of the
three sampled buses alone. -/
def Obligations.AcceptedCommandWritesTheFourRegisters : Prop :=
  ∀ (s : State) (h : HostCycle) (rest : List HostCycle) (r : Word) (e : BitVec 2),
    s.host = h :: rest → h.rstN = true → h.cmdValid = true →
    r = (codecResponse ⟨h.cmdCtl, h.cmdWord.sample s.result, h.cmdValue.sample s.result⟩).result →
    e = (codecResponse ⟨h.cmdCtl, h.cmdWord.sample s.result, h.cmdValue.sample s.result⟩).err.code →
    ∃ t, step s = .next t ∧ t.result = r ∧ t.err = e ∧
      (t.sticky.getLsbD 0 = (s.sticky.getLsbD 0 || e == 0b01#2)) ∧
      (t.sticky.getLsbD 1 = (s.sticky.getLsbD 1 || e == 0b10#2)) ∧
      (t.sticky.getLsbD 2 = (s.sticky.getLsbD 2 || e == 0b11#2)) ∧
      t.rspValid = 1#1 ∧ t.host = rest

/-- R29, R66: the step at an accepting edge is `exec` of the decoded command, on the registers as they stood, with the
host's drive of this cycle used up. -/
def Obligations.AcceptingStepRunsTheDecodedCommand : Prop :=
  ∀ (s : State) (h : HostCycle) (rest : List HostCycle) (i : Instr),
    s.host = h :: rest → h.rstN = true → h.cmdValid = true →
    decode ⟨h.cmdCtl, h.cmdWord.sample s.result, h.cmdValue.sample s.result⟩ = i →
    step s = exec i { result := s.result, err := s.err, sticky := s.sticky, rspValid := s.rspValid, host := rest }

/-- R127 "does not stop the block", R64: every command and every edge, in every state, answers a next state. -/
def Obligations.NoCommandAndNoEdgeStopsTheBlock : Prop :=
  (∀ (i : Instr) (s : State), ∃ t, exec i s = .next t) ∧ (∀ s : State, ∃ t, step s = .next t)

/-- R28: RSP_VALID is 1 exactly after an accepting edge, and then RESULT and ERR hold that command's response; after any other
edge they hold what they held, or the reset values after a reset edge. -/
def Obligations.RspValidIsOneExactlyAfterAnAcceptedCommand : Prop :=
  ∀ s t : State, step s = .next t →
    (t.rspValid = 1#1 ↔ ∃ h rest, s.host = h :: rest ∧ h.rstN = true ∧ h.cmdValid = true) ∧
    (∀ h rest, s.host = h :: rest → t.rspValid = 1#1 →
      t.result = (codecResponse ⟨h.cmdCtl, h.cmdWord.sample s.result, h.cmdValue.sample s.result⟩).result ∧
      t.err = (codecResponse ⟨h.cmdCtl, h.cmdWord.sample s.result, h.cmdValue.sample s.result⟩).err.code) ∧
    (t.rspValid ≠ 1#1 → (t.result = s.result ∧ t.err = s.err) ∨
      ((∃ h rest, s.host = h :: rest ∧ h.rstN = false) ∧ t.result = 0#64 ∧ t.err = 0b00#2))

/-- R27: which command sets which sticky bit, that a set bit stays until a reset edge, and that all eight values are
reachable from reset. -/
def Obligations.StickyBitsAccumulateUntilReset : Prop :=
  (∀ (i : Instr) (s t : State), exec i s = .next t →
    (t.sticky.getLsbD 0 = (s.sticky.getLsbD 0 || t.err == 0b01#2)) ∧
    (t.sticky.getLsbD 1 = (s.sticky.getLsbD 1 || t.err == 0b10#2)) ∧
    (t.sticky.getLsbD 2 = (s.sticky.getLsbD 2 || t.err == 0b11#2))) ∧
  (∀ (s t : State) (k : Nat), step s = .next t → (∀ h rest, s.host = h :: rest → h.rstN = true) →
    s.sticky.getLsbD k = true → t.sticky.getLsbD k = true) ∧
  (∀ v : BitVec 3, ∃ (cycles : List HostCycle) (t : State),
    core.run cycles.length { State.reset with host := cycles } = .next t ∧ t.sticky = v)

/-! ## Errors -/

/-- R123: on every error RESULT is 0. -/
def Obligations.ErrorsAnswerZero : Prop :=
  ∀ (i : Instr) (s t : State), exec i s = .next t →
    t.err = 0b01#2 ∨ t.err = 0b10#2 ∨ t.err = 0b11#2 → t.result = 0#64

/-- R120: the codes of ERR, which opcodes raise which, RESULT 0 on an error, the one sticky bit each sets, and that nothing
of a command is kept beyond its response: two commands with the same response leave the same state. -/
def Obligations.ErrorCodesAreRaisedByTheirOpcodesOnly : Prop :=
  (∀ (i : Instr) (s t : State), exec i s = .next t →
    (t.err = 0b00#2 → t.sticky = s.sticky) ∧
    (t.err = 0b01#2 → (i.opcode = 0b100 ∨ i.opcode = 0b101) ∧ t.result = 0#64 ∧ t.sticky = s.sticky ||| 0b001#3) ∧
    (t.err = 0b10#2 → i.opcode ≤ 0b101 ∧ t.result = 0#64 ∧ t.sticky = s.sticky ||| 0b010#3) ∧
    (t.err = 0b11#2 → (i.opcode = 0b110 ∨ i.opcode = 0b111) ∧ t.result = 0#64 ∧ t.sticky = s.sticky ||| 0b100#3)) ∧
  (∀ (i j : Instr) (s t u : State), exec i s = .next t → exec j s = .next u →
    t.result = u.result → t.err = u.err → t = u)

/-- R121: both reserved opcodes answer `(0, ILLEGAL)` whatever their operands; STICKY gains ILL_S and nothing else
changes. -/
def Obligations.ReservedOpcodesAnswerIllegal : Prop :=
  (∀ c : Command, c.ctl.toNat % 8 = 0b110 →
    decode c = .reserved110 (c.ctl.toNat / 8 % 128) (c.ctl.toNat / 1024) c.word c.value) ∧
  (∀ c : Command, c.ctl.toNat % 8 = 0b111 →
    decode c = .reserved111 (c.ctl.toNat / 8 % 128) (c.ctl.toNat / 1024) c.word c.value) ∧
  (∀ (width lsb : Nat) (word value : Word) (s : State),
    exec (.reserved110 width lsb word value) s = .next { s with
      result := 0#64, err := 0b11#2, sticky := s.sticky ||| 0b100#3, rspValid := 1#1 } ∧
    exec (.reserved111 width lsb word value) s = .next { s with
      result := 0#64, err := 0b11#2, sticky := s.sticky ||| 0b100#3, rspValid := 1#1 })

/-- R122: the precondition each operation checks, the whole effect of breaking it, that only breaking it gives PRECONDITION,
and that PRE_S is a fault of the host. -/
def Obligations.BrokenPreconditionAnswersPrecondition : Prop :=
  (∀ (f : Nat → Nat → Word → Word → Instr) (width lsb : Nat) (word value : Word) (s : State),
    (((f = .fitsu ∨ f = .fitss) ∧ 64 < width) ∨
      ((f = .getu ∨ f = .gets ∨ f = .setu ∨ f = .sets) ∧ (64 < width ∨ 64 < width + lsb))) →
    exec (f width lsb word value) s = .next { s with
      result := 0#64, err := 0b10#2, sticky := s.sticky ||| 0b010#3, rspValid := 1#1 }) ∧
  (∀ (f : Nat → Nat → Word → Word → Instr) (width lsb : Nat) (word value : Word) (s t : State),
    (((f = .fitsu ∨ f = .fitss) ∧ width ≤ 64) ∨
      ((f = .getu ∨ f = .gets ∨ f = .setu ∨ f = .sets) ∧ width + lsb ≤ 64)) →
    exec (f width lsb word value) s = .next t → t.err ≠ 0b10#2) ∧
  (∀ s : State, s.sticky.getLsbD 1 = true → s.HostFault)

/-- R124: when SETU and SETS raise OVERFLOW, only after the precondition holds, and that the other four never do. -/
def Obligations.OverflowIsRaisedExactlyByMisfits : Prop :=
  (∀ (width lsb : Nat) (word value : Word) (s t : State), width + lsb ≤ 64 →
    exec (.setu width lsb word value) s = .next t →
    (t.err = 0b01#2 ↔ width < 64 ∧ 2 ^ width ≤ value.toNat)) ∧
  (∀ (width lsb : Nat) (word value : Word) (s t : State), width + lsb ≤ 64 →
    exec (.sets width lsb word value) s = .next t →
    (t.err = 0b01#2 ↔ (width = 0 ∧ value.toInt ≠ 0) ∨
      (0 < width ∧ width < 64 ∧ (value.toInt < -(2 : Int) ^ (width - 1) ∨ (2 : Int) ^ (width - 1) ≤ value.toInt)))) ∧
  (∀ (f : Nat → Nat → Word → Word → Instr) (width lsb : Nat) (word value : Word) (s t : State),
    (f = .setu ∨ f = .sets) → 64 < width + lsb → exec (f width lsb word value) s = .next t → t.err ≠ 0b01#2) ∧
  (∀ (f : Nat → Nat → Word → Word → Instr) (width lsb : Nat) (word value : Word) (s t : State),
    (f = .fitsu ∨ f = .fitss ∨ f = .getu ∨ f = .gets) → exec (f width lsb word value) s = .next t → t.err ≠ 0b01#2)

/-- R125: ILLEGAL before PRECONDITION before OVERFLOW at every width, with the rule's example. -/
def Obligations.OneErrorInPriorityOrder : Prop :=
  (∀ (f : Nat → Nat → Word → Word → Instr) (width lsb : Nat) (word value : Word) (s t : State),
    (f = .reserved110 ∨ f = .reserved111) → exec (f width lsb word value) s = .next t → t.err = 0b11#2) ∧
  (∀ (f : Nat → Nat → Word → Word → Instr) (width lsb : Nat) (word value : Word) (s t : State),
    (f = .setu ∨ f = .sets) → 64 < width + lsb → exec (f width lsb word value) s = .next t → t.err = 0b10#2) ∧
  (∀ (width lsb : Nat) (word value : Word) (s t : State), width + lsb ≤ 64 → width < 64 → 2 ^ width ≤ value.toNat →
    exec (.setu width lsb word value) s = .next t → t.err = 0b01#2) ∧
  (∀ (width lsb : Nat) (word value : Word) (s t : State), width + lsb ≤ 64 →
    (width = 0 ∧ value.toInt ≠ 0) ∨ (0 < width ∧ width < 64 ∧
      (value.toInt < -(2 : Int) ^ (width - 1) ∨ (2 : Int) ^ (width - 1) ≤ value.toInt)) →
    exec (.sets width lsb word value) s = .next t → t.err = 0b01#2) ∧
  (∀ s t : State, exec (.setu 65 0 0#64 0xFFFFFFFFFFFFFFFF#64) s = .next t → t.err = 0b10#2)

/-! ## The six operations -/

/-- R80: FITSU's encoding, its answer at every width, and that nothing else changes. -/
def Obligations.FitsuTellsWhetherTheUnsignedValueFits : Prop :=
  (∀ c : Command, c.ctl.toNat % 8 = 0b000 →
    decode c = .fitsu (c.ctl.toNat / 8 % 128) (c.ctl.toNat / 1024) c.word c.value) ∧
  (∀ (width lsb : Nat) (word value : Word) (s : State),
    (width ≤ 64 → exec (.fitsu width lsb word value) s = .next { s with
      result := if width = 64 ∨ value.toNat < 2 ^ width then 1#64 else 0#64, err := 0b00#2, rspValid := 1#1 }) ∧
    (64 < width → exec (.fitsu width lsb word value) s = .next { s with
      result := 0#64, err := 0b10#2, sticky := s.sticky ||| 0b010#3, rspValid := 1#1 }))

/-- R81: FITSS's encoding, its answer at every width, and that nothing else changes. -/
def Obligations.FitssTellsWhetherTheSignedValueFits : Prop :=
  (∀ c : Command, c.ctl.toNat % 8 = 0b001 →
    decode c = .fitss (c.ctl.toNat / 8 % 128) (c.ctl.toNat / 1024) c.word c.value) ∧
  (∀ (width lsb : Nat) (word value : Word) (s : State),
    (width ≤ 64 → exec (.fitss width lsb word value) s = .next { s with
      result := if width = 64 ∨ (width = 0 ∧ value.toInt = 0) ∨
        (0 < width ∧ -(2 : Int) ^ (width - 1) ≤ value.toInt ∧ value.toInt < (2 : Int) ^ (width - 1)) then 1#64 else 0#64,
      err := 0b00#2, rspValid := 1#1 }) ∧
    (64 < width → exec (.fitss width lsb word value) s = .next { s with
      result := 0#64, err := 0b10#2, sticky := s.sticky ||| 0b010#3, rspValid := 1#1 }))

/-- R90: GETU's encoding, the extracted number, and that nothing else changes. -/
def Obligations.GetuExtractsTheUnsignedField : Prop :=
  (∀ c : Command, c.ctl.toNat % 8 = 0b010 →
    decode c = .getu (c.ctl.toNat / 8 % 128) (c.ctl.toNat / 1024) c.word c.value) ∧
  (∀ (width lsb : Nat) (word value : Word) (s : State),
    (width + lsb ≤ 64 → exec (.getu width lsb word value) s = .next { s with
      result := BitVec.ofNat 64 (word.toNat / 2 ^ lsb % 2 ^ width), err := 0b00#2, rspValid := 1#1 }) ∧
    (64 < width ∨ 64 < width + lsb → exec (.getu width lsb word value) s = .next { s with
      result := 0#64, err := 0b10#2, sticky := s.sticky ||| 0b010#3, rspValid := 1#1 }))

/-- R91: GETS's encoding, the extracted number read as `width`-bit two's complement (0 at width 0), and that nothing else
changes. -/
def Obligations.GetsExtractsTheSignedField : Prop :=
  (∀ c : Command, c.ctl.toNat % 8 = 0b011 →
    decode c = .gets (c.ctl.toNat / 8 % 128) (c.ctl.toNat / 1024) c.word c.value) ∧
  (∀ (width lsb : Nat) (word value : Word) (s : State),
    (width + lsb ≤ 64 → exec (.gets width lsb word value) s = .next { s with
      result := BitVec.ofInt 64
        (if width = 0 then 0
         else if 2 ^ (width - 1) ≤ word.toNat / 2 ^ lsb % 2 ^ width
           then ((word.toNat / 2 ^ lsb % 2 ^ width : Nat) : Int) - (2 : Int) ^ width
           else ((word.toNat / 2 ^ lsb % 2 ^ width : Nat) : Int)),
      err := 0b00#2, rspValid := 1#1 }) ∧
    (64 < width ∨ 64 < width + lsb → exec (.gets width lsb word value) s = .next { s with
      result := 0#64, err := 0b10#2, sticky := s.sticky ||| 0b010#3, rspValid := 1#1 }))

/-- R100: SETU's encoding, the word it builds bit by bit, its two errors, and that nothing else changes. -/
def Obligations.SetuReplacesTheFieldOrRefusesTheValue : Prop :=
  (∀ c : Command, c.ctl.toNat % 8 = 0b100 →
    decode c = .setu (c.ctl.toNat / 8 % 128) (c.ctl.toNat / 1024) c.word c.value) ∧
  (∀ (width lsb : Nat) (word value : Word) (s : State),
    (width + lsb ≤ 64 → width = 64 ∨ value.toNat < 2 ^ width →
      ∃ r : Word, exec (.setu width lsb word value) s = .next { s with
          result := r, err := 0b00#2, rspValid := 1#1 } ∧
        ∀ i, i < 64 → r.getLsbD i =
          if lsb ≤ i ∧ i < lsb + width then value.getLsbD (i - lsb) else word.getLsbD i) ∧
    (width + lsb ≤ 64 → width ≠ 64 → 2 ^ width ≤ value.toNat →
      exec (.setu width lsb word value) s = .next { s with
        result := 0#64, err := 0b01#2, sticky := s.sticky ||| 0b001#3, rspValid := 1#1 }) ∧
    (64 < width ∨ 64 < width + lsb → exec (.setu width lsb word value) s = .next { s with
      result := 0#64, err := 0b10#2, sticky := s.sticky ||| 0b010#3, rspValid := 1#1 }))

/-- R101: SETS's encoding, the word it builds bit by bit (the low `width` bits of the two's-complement pattern), its two
errors, and that nothing else changes. -/
def Obligations.SetsReplacesTheFieldOrRefusesTheValue : Prop :=
  (∀ c : Command, c.ctl.toNat % 8 = 0b101 →
    decode c = .sets (c.ctl.toNat / 8 % 128) (c.ctl.toNat / 1024) c.word c.value) ∧
  (∀ (width lsb : Nat) (word value : Word) (s : State),
    (width + lsb ≤ 64 →
      width = 64 ∨ (width = 0 ∧ value.toInt = 0) ∨
        (0 < width ∧ -(2 : Int) ^ (width - 1) ≤ value.toInt ∧ value.toInt < (2 : Int) ^ (width - 1)) →
      ∃ r : Word, exec (.sets width lsb word value) s = .next { s with
          result := r, err := 0b00#2, rspValid := 1#1 } ∧
        ∀ i, i < 64 → r.getLsbD i =
          if lsb ≤ i ∧ i < lsb + width then value.getLsbD (i - lsb) else word.getLsbD i) ∧
    (width + lsb ≤ 64 →
      (width = 0 ∧ value.toInt ≠ 0) ∨ (0 < width ∧ width < 64 ∧
        (value.toInt < -(2 : Int) ^ (width - 1) ∨ (2 : Int) ^ (width - 1) ≤ value.toInt)) →
      exec (.sets width lsb word value) s = .next { s with
        result := 0#64, err := 0b01#2, sticky := s.sticky ||| 0b001#3, rspValid := 1#1 }) ∧
    (64 < width ∨ 64 < width + lsb → exec (.sets width lsb word value) s = .next { s with
      result := 0#64, err := 0b10#2, sticky := s.sticky ||| 0b010#3, rspValid := 1#1 }))

/-- R65: the operands an operation does not take do not affect its outcome and are not checked; SETU and SETS use every
operand (for each there are two values of it, the rest equal, with different answers). -/
def Obligations.UnusedOperandsAreIgnored : Prop :=
  (∀ (width lsb lsb' : Nat) (word word' value : Word) (s : State),
    exec (.fitsu width lsb word value) s = exec (.fitsu width lsb' word' value) s ∧
    exec (.fitss width lsb word value) s = exec (.fitss width lsb' word' value) s) ∧
  (∀ (width lsb : Nat) (word value : Word) (s : State), width ≤ 64 →
    (∃ t, exec (.fitsu width lsb word value) s = .next t ∧ t.err = 0b00#2) ∧
    (∃ t, exec (.fitss width lsb word value) s = .next t ∧ t.err = 0b00#2)) ∧
  (∀ (width lsb : Nat) (word value value' : Word) (s : State),
    exec (.getu width lsb word value) s = exec (.getu width lsb word value') s ∧
    exec (.gets width lsb word value) s = exec (.gets width lsb word value') s) ∧
  (∀ (f : Nat → Nat → Word → Word → Instr) (s : State), (f = .setu ∨ f = .sets) →
    (∃ w w' l x v, exec (f w l x v) s ≠ exec (f w' l x v) s) ∧
    (∃ w l l' x v, exec (f w l x v) s ≠ exec (f w l' x v) s) ∧
    (∃ w l x x' v, exec (f w l x v) s ≠ exec (f w l x' v) s) ∧
    (∃ w l x v v', exec (f w l x v) s ≠ exec (f w l x v') s))

/-! ## Laws of the operations -/

/-- R82: the fits predicates decide OVERFLOW of the set family. -/
def Obligations.FitsDecidesOverflow : Prop :=
  ∀ (width lsb lsb' : Nat) (word word' value : Word) (s s' t u : State), width + lsb ≤ 64 →
    (exec (.setu width lsb word value) s = .next t → exec (.fitsu width lsb' word' value) s' = .next u →
      (t.err = 0b01#2 ↔ u.result = 0#64)) ∧
    (exec (.sets width lsb word value) s = .next t → exec (.fitss width lsb' word' value) s' = .next u →
      (t.err = 0b01#2 ↔ u.result = 0#64))

/-- R83: what fits at a width fits at the next one, and an unsigned fit below 2^63 is a signed fit one bit wider. -/
def Obligations.FitsIsMonotoneInTheWidth : Prop :=
  ∀ (w l : Nat) (x v : Word) (s t u : State), w < 64 →
    (exec (.fitsu w l x v) s = .next t → exec (.fitsu (w + 1) l x v) s = .next u → t.result = 1#64 → u.result = 1#64) ∧
    (exec (.fitss w l x v) s = .next t → exec (.fitss (w + 1) l x v) s = .next u → t.result = 1#64 → u.result = 1#64) ∧
    (v.toNat < 2 ^ 63 → exec (.fitsu w l x v) s = .next t → exec (.fitss (w + 1) l x v) s = .next u →
      t.result = 1#64 → u.result = 1#64)

/-- R92: the relations between GETU, GETS and the fits predicates, for every legal width and position. -/
def Obligations.GetsIsTheSignExtensionOfGetu : Prop :=
  ∀ (width lsb : Nat) (word value value' : Word) (s t u : State), width + lsb ≤ 64 →
    exec (.getu width lsb word value) s = .next t → exec (.gets width lsb word value') s = .next u →
    u.result = sext64 t.result width ∧
    (width < 64 → t.result.toNat < 2 ^ width) ∧
    (1 ≤ width → -(2 : Int) ^ (width - 1) ≤ u.result.toInt ∧ u.result.toInt < (2 : Int) ^ (width - 1)) ∧
    (1 ≤ width → t.result.getLsbD (width - 1) = false → u.result = t.result) ∧
    (∃ a, exec (.fitsu width lsb word t.result) s = .next a ∧ a.result = 1#64) ∧
    (∃ b, exec (.fitss width lsb word u.result) s = .next b ∧ b.result = 1#64)

/-- R102: a successful SET is read back by the matching GET. -/
def Obligations.GetReturnsWhatSetWrote : Prop :=
  ∀ (width lsb : Nat) (word value other : Word) (s t s' : State), width + lsb ≤ 64 →
    (exec (.setu width lsb word value) s = .next t → t.err = 0b00#2 →
      ∃ u, exec (.getu width lsb t.result other) s' = .next u ∧ u.result = value ∧ u.err = 0b00#2) ∧
    (exec (.sets width lsb word value) s = .next t → t.err = 0b00#2 →
      ∃ u, exec (.gets width lsb t.result other) s' = .next u ∧ u.result = value ∧ u.err = 0b00#2)

/-- R103: SETs to fields that do not overlap give the same word in either order, and a SET leaves the GET of the other field
unchanged. -/
def Obligations.DisjointFieldsAreIndependent : Prop :=
  ∀ (f g : Nat → Nat → Word → Word → Instr) (w1 l1 w2 l2 : Nat) (word v1 v2 other : Word) (s a b : State),
    (f = .setu ∨ f = .sets) → (l1 + w1 ≤ l2 ∨ l2 + w2 ≤ l1) →
    exec (f w1 l1 word v1) s = .next a → a.err = 0b00#2 →
    ((g = .setu ∨ g = .sets) → exec (g w2 l2 a.result v2) s = .next b → b.err = 0b00#2 →
      ∃ c d, exec (g w2 l2 word v2) s = .next c ∧ c.err = 0b00#2 ∧
        exec (f w1 l1 c.result v1) s = .next d ∧ d.err = 0b00#2 ∧ d.result = b.result) ∧
    ((g = .getu ∨ g = .gets) → exec (g w2 l2 a.result other) s = exec (g w2 l2 word other) s)

/-- R104: a second SET of a field overwrites the first, and a SET of what the GET reads changes nothing. -/
def Obligations.SetOverwritesAndSetOfGetIsIdentity : Prop :=
  (∀ (f : Nat → Nat → Word → Word → Instr) (w l : Nat) (word v1 v2 : Word) (s a b c : State),
    (f = .setu ∨ f = .sets) →
    exec (f w l word v1) s = .next a → a.err = 0b00#2 →
    exec (f w l a.result v2) s = .next b → b.err = 0b00#2 →
    exec (f w l word v2) s = .next c → c.err = 0b00#2 → b.result = c.result) ∧
  (∀ (f g : Nat → Nat → Word → Word → Instr) (w l : Nat) (word other : Word) (s a : State),
    (f = .setu ∧ g = .getu) ∨ (f = .sets ∧ g = .gets) → w + l ≤ 64 →
    exec (g w l word other) s = .next a →
    ∃ b, exec (f w l word a.result) s = .next b ∧ b.err = 0b00#2 ∧ b.result = word)

/-- R25: which bits of RESULT a FITS, GETU or GETS command can leave 1. -/
def Obligations.ResultHasTheShapeOfItsOperation : Prop :=
  ∀ (width lsb : Nat) (word value : Word) (s t : State),
    ((exec (.fitsu width lsb word value) s = .next t ∨ exec (.fitss width lsb word value) s = .next t) →
      ∀ i, 0 < i → t.result.getLsbD i = false) ∧
    (exec (.getu width lsb word value) s = .next t → ∀ i, width ≤ i → t.result.getLsbD i = false) ∧
    (exec (.gets width lsb word value) s = .next t → 1 ≤ width →
      ∀ i, width ≤ i → i < 64 → t.result.getLsbD i = t.result.getLsbD (width - 1))

/-- R10, U3: `shl` and `shr` are multiplication and division by a power of two, and give all zero from a shift of 64 on;
`mask(w)` has exactly its low `w` bits set. -/
def Obligations.ShiftsOfSixtyFourOrMoreGiveZero : Prop :=
  (∀ (x : Word) (n : Nat), 64 ≤ n → shl x n = 0#64 ∧ shr x n = 0#64) ∧
  (∀ (x : Word) (n : Nat), n < 64 → (shl x n).toNat = x.toNat * 2 ^ n % 2 ^ 64 ∧ (shr x n).toNat = x.toNat / 2 ^ n) ∧
  (∀ w i : Nat, w ≤ 64 → (mask w).getLsbD i = decide (i < w)) ∧ mask 0 = 0#64 ∧ mask 64 = 0xFFFFFFFFFFFFFFFF#64

/-- R9: the two readings of a bus, their ranges, and that `bits64` puts a signed value back. -/
def Obligations.BusReadingsAreUnsignedAndTwosComplement : Prop :=
  ∀ x : Word, uint x < 2 ^ 64 ∧ -(2 : Int) ^ 63 ≤ sint x ∧ sint x < (2 : Int) ^ 63 ∧
    (x.getLsbD 63 = false → sint x = (uint x : Int)) ∧ (x.getLsbD 63 = true → sint x = (uint x : Int) - 2 ^ 64) ∧
    bits64 (sint x) = x

/-! ## Encoding -/

/-- R60, R69: encoding a well-formed command and decoding it gives it back, every operand at every value. -/
def Obligations.DecodeOfEncodeIsTheCommand : Prop :=
  ∀ i : Instr, i.WellFormed → decode (encode i) = i

/-- R62, R64: every value of the command buses decodes to one well-formed command, with `width`, `lsb`, `word` and `value`
read from their bits, and encoding it gives the buses back: no bit is dropped. -/
def Obligations.EncodeOfDecodeIsTheBuses : Prop :=
  ∀ c : Command, (decode c).WellFormed ∧ (decode c).width = c.ctl.toNat / 2 ^ 3 % 2 ^ 7 ∧
    (decode c).lsb = c.ctl.toNat / 2 ^ 10 % 2 ^ 7 ∧ (decode c).opcode = c.ctl.toNat % 2 ^ 3 ∧ encode (decode c) = c

/-- Control words of 95_test_vectors.md, bit by bit, and what they decode to. -/
def Obligations.WrittenOutControlWordsDecode : Prop :=
  decode ⟨0b0000000_0001001_000#17, 0#64, 511#64⟩ = .fitsu 9 0 0#64 511#64 ∧
  decode ⟨0b0000000_0000101_001#17, 0#64, 16#64⟩ = .fitss 5 0 0#64 16#64 ∧
  decode ⟨0b0111000_0001000_010#17, 7#64, 0#64⟩ = .getu 8 56 7#64 0#64 ∧
  decode ⟨0b0010010_0000101_011#17, 7#64, 0#64⟩ = .gets 5 18 7#64 0#64 ∧
  decode ⟨0b0010111_0001001_100#17, 0#64, 511#64⟩ = .setu 9 23 0#64 511#64 ∧
  decode ⟨0b0010010_0000101_101#17, 3#64, 15#64⟩ = .sets 5 18 3#64 15#64 ∧
  decode ⟨0b0010111_0001001_110#17, 0#64, 512#64⟩ = .reserved110 9 23 0#64 512#64 ∧
  decode ⟨0b1111111_1111111_111#17, 1#64, 2#64⟩ = .reserved111 127 127 1#64 2#64

/-- R69: the cycle a command line drives, for all eight commands, with an integer or `RES` on each bus, and the rule's
example. -/
def Obligations.CommandLinesDriveTheirControlWord : Prop :=
  (∀ (mk : Nat → Nat → BusToken → BusToken → Line) (op W L : Nat) (X V : BusToken) (x v : BusDrive),
    (mk = .setu ∧ op = 0b100) ∨ (mk = .sets ∧ op = 0b101) ∨ (mk = .rsvd6 ∧ op = 0b110) ∨ (mk = .rsvd7 ∧ op = 0b111) ∨
      (mk = (fun W L X _ => .getu W L X) ∧ op = 0b010 ∧ V = .int 0) ∨
      (mk = (fun W L X _ => .gets W L X) ∧ op = 0b011 ∧ V = .int 0) ∨
      (mk = (fun W _ _ V => .fitsu W V) ∧ op = 0b000 ∧ L = 0 ∧ X = .int 0) ∨
      (mk = (fun W _ _ V => .fitss W V) ∧ op = 0b001 ∧ L = 0 ∧ X = .int 0) →
    W ≤ 127 → L ≤ 127 →
    ((X = .res ∧ x = .rspResult) ∨
      ∃ n : Int, X = .int n ∧ -(2 : Int) ^ 63 ≤ n ∧ n < (2 : Int) ^ 64 ∧ x = .bits (BitVec.ofInt 64 n)) →
    ((V = .res ∧ v = .rspResult) ∨
      ∃ n : Int, V = .int n ∧ -(2 : Int) ^ 63 ≤ n ∧ n < (2 : Int) ^ 64 ∧ v = .bits (BitVec.ofInt 64 n)) →
    (mk W L X V).cycle = some ⟨true, true, BitVec.ofNat 17 (L * 2 ^ 10 + W * 2 ^ 3 + op), x, v⟩) ∧
  (Line.setu 9 23 (.int 0) (.int 511)).cycle = some ⟨true, true, 0x05C4C#17, .bits 0#64, .bits 0x1FF#64⟩

/-! ## Whole-machine rules -/

/-- The registers are coherent at reset. -/
def Obligations.ResetStateIsCoherent : Prop := State.reset.Coherent

/-- R123, R27: every step from a coherent state leaves a coherent state: an error in ERR has RESULT 0 and its sticky bit
set. -/
def Obligations.EveryStepKeepsTheRegistersCoherent : Prop :=
  ∀ s t : State, s.Coherent → step s = .next t → t.Coherent

/-- R122, U1, U2: a legal command leaves each of PRE_S and ILL_S as it is, so a correct host's stream never becomes at fault;
a command that is not legal leaves the host at fault. That the host is at fault exactly when PRE_S or ILL_S is set
(`State.HostFault`) is the model's reading of R122, U1 and U2 (DEDUCED, log entry 4). -/
def Obligations.LegalCommandsNeverFaultTheHost : Prop :=
  ∀ (i : Instr) (s t : State), exec i s = .next t →
    (legalCommand i = true → t.preS = s.preS ∧ t.illS = s.illS ∧ (t.HostFault ↔ s.HostFault)) ∧
    (legalCommand i = false → t.HostFault)

/-- R29, R34, R48: a command's response does not depend on the state it runs in. -/
def Obligations.ResponsesDoNotDependOnTheState : Prop :=
  ∀ (i : Instr) (s1 s2 t1 t2 : State), exec i s1 = .next t1 → exec i s2 = .next t2 →
    t1.result = t2.result ∧ t1.err = t2.err

/-- R48: the same command twice gives the same registers both times. -/
def Obligations.RepeatedCommandChangesNothingMore : Prop :=
  ∀ (i : Instr) (s t : State), exec i s = .next t → exec i t = .next t

/-- R142: after a reset edge nothing is left of the registers before it, those of power-up among them. -/
def Obligations.ResetErasesThePowerUpState : Prop :=
  (∀ (s1 s2 : State) (h : HostCycle) (rest : List HostCycle), s1.host = h :: rest → s2.host = h :: rest →
    h.rstN = false → step s1 = step s2) ∧
  (∀ (h : HostCycle) (rest : List HostCycle), h.rstN = false →
    step (State.powerUp (h :: rest)) = .next { State.reset with host := rest })

/-- R30, R136, R146: any number of idle cycles changes nothing but RSP_VALID. -/
def Obligations.IdleCyclesKeepEverythingButRspValid : Prop :=
  ∀ (idles rest : List HostCycle) (s : State), idles ≠ [] → (∀ h ∈ idles, h.rstN = true ∧ h.cmdValid = false) →
    s.host = idles ++ rest →
    core.run idles.length s = .next { s with rspValid := 0#1, host := rest }

/-- R144: after any edge and any number of idle cycles, a command whose `cmd_word` and `cmd_value` are `RES` runs with the
RESULT that edge left: the last command's, or 0 after a reset edge. -/
def Obligations.ResOperandIsTheLastResult : Prop :=
  ∀ (h1 h2 : HostCycle) (idles rest : List HostCycle) (s a b : State),
    s.host = h1 :: (idles ++ h2 :: rest) → (∀ h ∈ idles, h.rstN = true ∧ h.cmdValid = false) →
    h2.rstN = true → h2.cmdValid = true → h2.cmdWord = .rspResult → h2.cmdValue = .rspResult →
    step s = .next a → core.run (idles.length + 1) s = .next b →
    step b = exec (decode ⟨h2.cmdCtl, a.result, a.result⟩) { b with host := rest } ∧
    (h1.rstN = false → a.result = 0#64)

/-- R36: one edge of the cycle-level machine is the transaction of its cycle on the tuple (RESULT, ERR, STICKY), and leaves
the tuple as it was where the cycle carries none: an idle cycle, or no cycle at all (log entry 2). -/
def Obligations.EveryEdgeIsItsTransactionOrNone : Prop :=
  ∀ s t : State, step s = .next t →
    (s.host = [] → t.txn = s.txn) ∧
    (∀ h rest, s.host = h :: rest →
      (h.txn = none → t.txn = s.txn) ∧ (∀ i, h.txn = some i → t.txn = txnStep s.txn i))

/-- R36: the cycle-level machine and the transaction-level model produce the same sequence of (RESULT, ERR, STICKY) after
each command, whatever the host drives. An edge counts as a command where RSP_VALID is 1 after it (log entry 15). -/
def Obligations.CycleAndTransactionLevelsAgree : Prop :=
  ∀ s : State, commandTrace s.host.length s = txnTrace s.txn (s.host.filterMap HostCycle.txn)

/-- R50: the responses of a run, where no bus is driven with `RES`, are those of its cycles each run alone from reset, in
order. A run's responses are what `observe` takes at the edges after which RSP_VALID is 1 (log entry 15).
That they go on over a reset cycle among the cycles is the model's choice (log entry 16). -/
def Obligations.ResponsesComeInOrderEachAsIfAlone : Prop :=
  ∀ cycles : List HostCycle, (∀ h ∈ cycles, h.cmdWord ≠ .rspResult ∧ h.cmdValue ≠ .rspResult) →
    (observe cycles).responses = cycles.flatMap fun h => (observe [h]).responses

/-- R27, R148: STICKY at the end of a run without a further reset holds exactly the errors of its responses, as
`observe` takes them at the edges after which RSP_VALID is 1 (log entry 15). -/
def Obligations.StickyAtTheEndIsTheErrorsOfTheRun : Prop :=
  ∀ cycles : List HostCycle, (∀ h ∈ cycles, h.rstN = true) →
    (observe cycles).sticky.getLsbD 0 = (observe cycles).responses.any (fun r => r.2 == 0b01#2) ∧
    (observe cycles).sticky.getLsbD 1 = (observe cycles).responses.any (fun r => r.2 == 0b10#2) ∧
    (observe cycles).sticky.getLsbD 2 = (observe cycles).responses.any (fun r => r.2 == 0b11#2)

/-- R134: several instances step as independent single instances. -/
def Obligations.InstancesStepIndependently : Prop :=
  ∀ ss : List State, ∃ ts, stepInstances ss = .next ts ∧ ts.length = ss.length ∧
    ∀ (k : Nat) (s : State), ss[k]? = some s → ∃ t, ts[k]? = some t ∧ step s = .next t
end

