-- ==== Sys2Proof/Laws/Decode.lean ====
section
/-! SUPPORT. The control word as a number: what its fields are, and what packing them gives. -/

namespace Sys2Proof

theorem ctlWidth_eq (ctl : Ctl) : ctlWidth ctl = ctl.toNat / 8 % 128 := by
  simp [ctlWidth, BitVec.extractLsb'_toNat, Nat.shiftRight_eq_div_pow]

theorem ctlLsb_eq (ctl : Ctl) : ctlLsb ctl = ctl.toNat / 1024 := by
  have h := ctl.isLt
  simp only [ctlLsb, BitVec.extractLsb'_toNat, Nat.shiftRight_eq_div_pow]
  omega

theorem ctlWidth_lt (ctl : Ctl) : ctlWidth ctl < 128 := by rw [ctlWidth_eq]; omega

theorem ctlLsb_lt (ctl : Ctl) : ctlLsb ctl < 128 := by
  have h := ctl.isLt
  rw [ctlLsb_eq]
  omega

/-- Packing places the three fields side by side (R60, R69). -/
theorem toNat_packCtl {op w l : Nat} (ho : op < 8) (hw : w < 128) (hl : l < 128) :
    (packCtl op w l).toNat = l * 1024 + w * 8 + op := by
  have h1 : (w <<< 3) ||| op = w * 8 + op := by
    rw [← Nat.shiftLeft_add_eq_or_of_lt (b := op) (i := 3) (by omega), Nat.shiftLeft_eq]
  have h2 : (l <<< 10) ||| (w * 8 + op) = l * 1024 + (w * 8 + op) := by
    rw [← Nat.shiftLeft_add_eq_or_of_lt (b := w * 8 + op) (i := 10) (by omega), Nat.shiftLeft_eq]
  rw [packCtl, BitVec.toNat_ofNat, Nat.or_assoc, h1, h2]
  omega

theorem ctlWidth_packCtl {op w l : Nat} (ho : op < 8) (hw : w < 128) (hl : l < 128) :
    ctlWidth (packCtl op w l) = w := by
  rw [ctlWidth_eq, toNat_packCtl ho hw hl]
  omega

theorem ctlLsb_packCtl {op w l : Nat} (ho : op < 8) (hw : w < 128) (hl : l < 128) :
    ctlLsb (packCtl op w l) = l := by
  rw [ctlLsb_eq, toNat_packCtl ho hw hl]
  omega

/-- The op bits of a packed control word are those of the opcode. -/
theorem getLsbD_packCtl {op w l : Nat} (ho : op < 8) (hw : w < 128) (hl : l < 128) {i : Nat} (hi : i < 3) :
    (packCtl op w l).getLsbD i = op.testBit i := by
  rw [BitVec.getLsbD, toNat_packCtl ho hw hl]
  have h : (l * 1024 + w * 8 + op) % 2 ^ 3 = op := by omega
  rw [← h, Nat.testBit_mod_two_pow, h]
  simp [hi]

@[simp] theorem width_decode (c : Command) : (decode c).width = ctlWidth c.ctl := by
  unfold decode
  split <;> rfl

@[simp] theorem lsb_decode (c : Command) : (decode c).lsb = ctlLsb c.ctl := by
  unfold decode
  split <;> rfl

theorem decode_wellFormed (c : Command) : (decode c).WellFormed :=
  ⟨by rw [width_decode]; exact ctlWidth_lt _, by rw [lsb_decode]; exact ctlLsb_lt _⟩

/-- Every command of the table is decoded from the number whose low bits are its control word. -/
theorem decodeTableWord_eq {n w : Nat} (hn : w < 2 ^ n) (hw : w < 2 ^ 145) :
    decodeTableWord n w = some (decode (commandOfNumber w)) := by
  simp only [decodeTableWord, decodeNumber]
  rw [if_pos ⟨hn, hw⟩]

/-- No bit of a command is lost in its number, or of a 145-bit number in its command. -/
theorem commandOfNumber_numberOfCommand (c : Command) : commandOfNumber (numberOfCommand c) = c := by
  obtain ⟨ctl, word, value⟩ := c
  have h1 := ctl.isLt
  have h2 := word.isLt
  have h3 := value.isLt
  simp only [commandOfNumber, numberOfCommand, Command.mk.injEq]
  refine ⟨?_, ?_, ?_⟩ <;> apply BitVec.eq_of_toNat_eq <;> rw [BitVec.toNat_ofNat] <;> omega

theorem numberOfCommand_commandOfNumber {w : Nat} (h : w < 2 ^ 145) :
    numberOfCommand (commandOfNumber w) = w := by
  simp only [commandOfNumber, numberOfCommand, BitVec.toNat_ofNat]
  omega

namespace Machine

/-- A presented command is run by the very next step. -/
theorem step_presentCommand (c : Command) (s : State) : step (presentCommand c s) = exec (decode c) s := rfl

/-- What the host asks of `withFetchWord` and `decodeTableWord` together. -/
theorem step_withFetchWord {n w : Nat} {i : Instr} (s : State) (h : decodeTableWord n w = some i) :
    step (s.withFetchWord n w) = exec i s := by
  by_cases hw : w < 2 ^ n ∧ w < 2 ^ 145
  · rw [decodeTableWord_eq hw.1 hw.2, Option.some.injEq] at h
    rw [State.withFetchWord, Nat.mod_eq_of_lt hw.1, step_presentCommand, h]
  · simp only [decodeTableWord, decodeNumber, if_neg hw] at h
    cases h

end Machine

end Sys2Proof
end

