-- ==== Sys2Proof/Laws/Operands.lean ====
section
/-! SUPPORT. What each operand primitive says about single bits, and its handier equal: the spec's arithmetic form is the
definition, and later proofs cite these. -/

namespace Sys2Proof.Machine

theorem uint_eq_toNat (x : Word) : uint x = x.toNat := rfl

/-- The spec's two's-complement reading is the library's. -/
theorem sint_eq_toInt (x : Word) : sint x = x.toInt := by
  have hx := x.isLt
  have hb : x.getLsbD 63 = decide (2 ^ 63 ≤ x.toNat) := by
    have := BitVec.msb_eq_decide x
    rwa [BitVec.msb_eq_getLsbD_last] at this
  rw [sint, uint, hb, BitVec.toInt_eq_toNat_cond]
  by_cases h : 2 ^ 63 ≤ x.toNat
  · have h2 : ¬ 2 * x.toNat < 2 ^ 64 := by omega
    simp only [h, h2, decide_true, if_true, if_false]
    norm_num
  · have h2 : 2 * x.toNat < 2 ^ 64 := by omega
    simp only [h, h2, decide_false, if_true, Bool.false_eq_true, if_false]
    norm_num

theorem shl_eq_shiftLeft (x : Word) (n : Nat) : shl x n = x <<< n := by
  unfold shl
  split
  · apply BitVec.eq_of_toNat_eq
    simp [uint, BitVec.toNat_shiftLeft, Nat.shiftLeft_eq]
  · exact (BitVec.shiftLeft_eq_zero (by omega)).symm

theorem shr_eq_ushiftRight (x : Word) (n : Nat) : shr x n = x >>> n := by
  unfold shr
  split
  · apply BitVec.eq_of_toNat_eq
    have h : x.toNat / 2 ^ n < 2 ^ 64 := lt_of_le_of_lt (Nat.div_le_self _ _) x.isLt
    rw [BitVec.toNat_ofNat, uint, Nat.mod_eq_of_lt h, BitVec.toNat_ushiftRight, Nat.shiftRight_eq_div_pow]
  · apply BitVec.eq_of_toNat_eq
    have h : x.toNat < 2 ^ n :=
      lt_of_lt_of_le x.isLt (Nat.pow_le_pow_right (by norm_num) (by omega))
    simp [BitVec.toNat_ushiftRight, Nat.shiftRight_eq_div_pow, Nat.div_eq_of_lt h]

/-- `shl` and `shr` give 0 from a shift of 64 on (R10, U3). -/
theorem shl_of_le (x : Word) {n : Nat} (h : 64 ≤ n) : shl x n = 0#64 := if_neg (by omega)

theorem shr_of_le (x : Word) {n : Nat} (h : 64 ≤ n) : shr x n = 0#64 := if_neg (by omega)

theorem getLsbD_mask {w : Nat} (h : w ≤ 64) (i : Nat) : (mask w).getLsbD i = decide (i < w) := by
  simp only [mask, BitVec.getLsbD_ofNat, Nat.testBit_two_pow_sub_one]
  by_cases hi : i < w
  · simp [hi, lt_of_lt_of_le hi h]
  · simp [hi]

theorem getLsbD_shl (x : Word) (n i : Nat) :
    (shl x n).getLsbD i = (decide (i < 64) && decide (n ≤ i) && x.getLsbD (i - n)) := by
  rw [shl_eq_shiftLeft, BitVec.getLsbD_shiftLeft]
  by_cases h : n ≤ i
  · simp [h, Nat.not_lt.mpr h]
  · simp [h, Nat.not_le.mp h]

theorem getLsbD_shr (x : Word) (n i : Nat) : (shr x n).getLsbD i = x.getLsbD (n + i) := by
  rw [shr_eq_ushiftRight, BitVec.getLsbD_ushiftRight]

/-- Bit `i` of an extracted field is bit `lsb + i` of the word, and 0 from `width` on (R42, R90). -/
theorem getLsbD_getField {w : Nat} (h : w ≤ 64) (l : Nat) (x : Word) (i : Nat) :
    (getField w l x).getLsbD i = (decide (i < w) && x.getLsbD (l + i)) := by
  rw [getField, BitVec.getLsbD_and, getLsbD_shr, getLsbD_mask h, Bool.and_comm]

/-- An extracted field as a number (R90). -/
theorem toNat_getField {w : Nat} (h : w ≤ 64) (l : Nat) (x : Word) :
    (getField w l x).toNat = x.toNat / 2 ^ l % 2 ^ w := by
  have hm : (mask w).toNat = 2 ^ w - 1 := by
    have : 2 ^ w ≤ 2 ^ 64 := Nat.pow_le_pow_right (by norm_num) h
    rw [mask, BitVec.toNat_ofNat, Nat.mod_eq_of_lt (by omega)]
  rw [getField, BitVec.toNat_and, shr_eq_ushiftRight, BitVec.toNat_ushiftRight, hm,
    Nat.and_two_pow_sub_one_eq_mod, Nat.shiftRight_eq_div_pow]

/-- A replaced field holds the new bits, and every other bit of the word is preserved (R100), for new bits that are 0
from `width` on. -/
theorem getLsbD_setField {w l : Nat} (h : w + l ≤ 64) (x f : Word)
    (hf : ∀ i, w ≤ i → f.getLsbD i = false) {i : Nat} (hi : i < 64) :
    (setField w l x f).getLsbD i =
      if l ≤ i ∧ i < l + w then f.getLsbD (i - l) else x.getLsbD i := by
  rw [setField, BitVec.getLsbD_or, BitVec.getLsbD_and, BitVec.getLsbD_not, getLsbD_shl, getLsbD_shl,
    getLsbD_mask (by omega)]
  by_cases hl : l ≤ i
  · by_cases hw : i < l + w
    · have h1 : i - l < w := by omega
      simp [hi, hl, hw, h1]
    · have h1 : ¬ i - l < w := by omega
      simp [hi, hl, hw, h1, hf (i - l) (by omega)]
  · simp [hi, hl]

/-- Bits of a sign-extended field (R10). -/
theorem getLsbD_sext64 {w : Nat} (h0 : 0 < w) (h : w ≤ 64) (f : Word)
    (hf : ∀ i, w ≤ i → f.getLsbD i = false) {i : Nat} (hi : i < 64) :
    (sext64 f w).getLsbD i = if i < w then f.getLsbD i else f.getLsbD (w - 1) := by
  rw [sext64, if_neg (by omega)]
  by_cases hs : f.getLsbD (w - 1) = true
  · rw [if_pos hs, BitVec.getLsbD_or, BitVec.getLsbD_not, getLsbD_mask h]
    by_cases hw : i < w
    · simp [hi, hw]
    · simp only [hi, hw, decide_true, decide_false, Bool.not_false, Bool.and_true, Bool.or_true, if_false, hs]
  · rw [if_neg hs]
    by_cases hw : i < w
    · rw [if_pos hw]
    · rw [if_neg hw, hf i (by omega)]
      simpa using hs

theorem sext64_zero (f : Word) : sext64 f 0 = 0#64 := rfl

theorem widthViolation_eq_false {w : Nat} : widthViolation w = false ↔ w ≤ 64 := by
  simp [widthViolation]

theorem widthViolation_eq_true {w : Nat} : widthViolation w = true ↔ 64 < w := by
  simp [widthViolation]

theorem fieldViolation_eq_false {w l : Nat} : fieldViolation w l = false ↔ w + l ≤ 64 := by
  simp only [fieldViolation, Bool.or_eq_false_iff, decide_eq_false_iff_not]
  omega

theorem fieldViolation_eq_true {w l : Nat} : fieldViolation w l = true ↔ 64 < w + l := by
  simp only [fieldViolation, Bool.or_eq_true, decide_eq_true_iff]
  omega

/-- A value fits unsigned when its bits from `width` on are 0. -/
theorem fitsUnsigned_iff_bits {w : Nat} (h : w ≤ 64) (v : Word) :
    fitsUnsigned w v = true ↔ ∀ i, w ≤ i → v.getLsbD i = false := by
  simp only [fitsUnsigned, Bool.or_eq_true, beq_iff_eq, decide_eq_true_eq]
  rw [uint_eq_toNat]
  constructor
  · rintro (rfl | hv) i hi
    · exact BitVec.getLsbD_of_ge v i hi
    · exact Nat.testBit_lt_two_pow (lt_of_lt_of_le hv (Nat.pow_le_pow_right (by norm_num) hi))
  · intro hb
    exact .inr (Nat.lt_pow_two_of_testBit _ fun i hi => hb i hi)

/-- The signed range of a width between 1 and 63, or the whole range at 64, as one statement on the reading. -/
theorem fitsSigned_iff {w : Nat} (h0 : 0 < w) (h : w ≤ 64) (v : Word) :
    fitsSigned w v = true ↔ -(2 : Int) ^ (w - 1) ≤ v.toInt ∧ v.toInt < (2 : Int) ^ (w - 1) := by
  rw [fitsSigned, sint_eq_toInt]
  by_cases hw : w = 64
  · subst hw
    have h1 := BitVec.le_toInt v
    have h2 := BitVec.toInt_lt (x := v)
    simp only [if_true, true_iff]
    exact ⟨by simpa using h1, by simpa using h2⟩
  · rw [if_neg hw, if_neg (by omega)]
    simp

theorem fitsSigned_zero (v : Word) : fitsSigned 0 v = true ↔ v = 0#64 := by
  simp only [fitsSigned, sint_eq_toInt]
  norm_num
  exact ⟨fun h => BitVec.eq_of_toInt_eq (by simpa using h), fun h => by simp [h]⟩

end Sys2Proof.Machine
end

