-- ==== Sys2Proof/Laws/Fields.lean ====
section
/-! SUPPORT. How extraction, replacement, sign extension and the fits predicates fit together. -/

namespace Sys2Proof.Machine

theorem getField_high {w l : Nat} {x : Word} (h : w ≤ 64) : ∀ i, w ≤ i → (getField w l x).getLsbD i = false := by
  intro i hi
  rw [getLsbD_getField h]
  simp [Nat.not_lt.2 hi]

theorem getLsbD_and_mask {w : Nat} (h : w ≤ 64) (v : Word) (i : Nat) :
    (v &&& mask w).getLsbD i = (v.getLsbD i && decide (i < w)) := by
  rw [BitVec.getLsbD_and, getLsbD_mask h]

theorem and_mask_high {w : Nat} (h : w ≤ 64) (v : Word) : ∀ i, w ≤ i → (v &&& mask w).getLsbD i = false := by
  intro i hi
  rw [getLsbD_and_mask h]
  simp [Nat.not_lt.2 hi]

theorem fitsUnsigned_iff {w : Nat} (v : Word) : fitsUnsigned w v = true ↔ w = 64 ∨ v.toNat < 2 ^ w := by
  rw [fitsUnsigned, Bool.or_eq_true, beq_iff_eq, decide_eq_true_eq, uint_eq_toNat]

theorem zext64_eq_one_iff (b : Bool) : zext64 b = 1#64 ↔ b = true := by
  cases b <;> simp [zext64]

/-- Half a power of two, in the form the signed ranges need. -/
theorem two_pow_eq_two_mul {w : Nat} (h : 0 < w) : (2 : Int) ^ w = 2 * 2 ^ (w - 1) := by
  rw [← pow_succ']
  congr
  omega

/-- The library's sign extension of the low `w` bits is the spec's. -/
theorem signExtend_setWidth_eq_sext64 {w : Nat} (h0 : 0 < w) (h : w ≤ 64) (v : Word) :
    (v.setWidth w).signExtend 64 = sext64 (v &&& mask w) w := by
  apply BitVec.eq_of_getLsbD_eq
  intro i hi
  rw [getLsbD_sext64 h0 h _ (and_mask_high h v) hi, BitVec.getLsbD_signExtend, getLsbD_and_mask h,
    getLsbD_and_mask h]
  simp [hi, BitVec.msb_eq_getLsbD_last, BitVec.getLsbD_setWidth, h0, Bool.and_comm]

/-- Masking a value whose bits from `w` on are 0 changes nothing. -/
theorem and_mask_of_high {w : Nat} (h : w ≤ 64) (f : Word) (hf : ∀ i, w ≤ i → f.getLsbD i = false) :
    f &&& mask w = f := by
  apply BitVec.eq_of_getLsbD_eq
  intro i _
  rw [getLsbD_and_mask h]
  by_cases hw : i < w
  · simp [hw]
  · simp [hf i (by omega)]

/-- A signed value that fits is the sign extension of its low bits: what SETS stores, GETS reads back (R102). -/
theorem sext64_and_mask {w : Nat} (h : w ≤ 64) (v : Word) (hf : fitsSigned w v = true) :
    sext64 (v &&& mask w) w = v := by
  rcases Nat.eq_zero_or_pos w with rfl | h0
  · rw [fitsSigned_zero] at hf
    subst hf
    rfl
  · rw [fitsSigned_iff h0 h] at hf
    rw [← signExtend_setWidth_eq_sext64 h0 h]
    apply BitVec.eq_of_toInt_eq
    have hp := two_pow_eq_two_mul h0
    rw [BitVec.toInt_signExtend_of_le h, BitVec.toInt_setWidth,
      show (v.toNat : Int).bmod (2 ^ w) = v.toInt.bmod (2 ^ w) by
        rw [BitVec.toInt_eq_toNat_bmod, Int.bmod_bmod_of_dvd (Nat.pow_dvd_pow 2 h)],
      Int.bmod_eq_of_le]
    · push_cast
      rw [hp]
      omega
    · push_cast
      rw [hp]
      omega

/-- A sign-extended field is in the signed range of its width (R92). -/
theorem fitsSigned_sext64 {w : Nat} (h : w ≤ 64) (f : Word) (hf : ∀ i, w ≤ i → f.getLsbD i = false) :
    fitsSigned w (sext64 f w) = true := by
  rcases Nat.eq_zero_or_pos w with rfl | h0
  · rw [sext64_zero]
    decide
  · rw [← and_mask_of_high h f hf, ← signExtend_setWidth_eq_sext64 h0 h, fitsSigned_iff h0 h,
      BitVec.toInt_signExtend_of_le h]
    exact ⟨BitVec.le_toInt _, BitVec.toInt_lt⟩

/-- The field just written is read back. -/
theorem getField_setField {w l : Nat} (x f : Word) (h : w + l ≤ 64) (hf : ∀ i, w ≤ i → f.getLsbD i = false) :
    getField w l (setField w l x f) = f := by
  apply BitVec.eq_of_getLsbD_eq
  intro i _
  rw [getLsbD_getField (by omega)]
  by_cases hw : i < w
  · rw [getLsbD_setField h _ _ hf (by omega)]
    simp [hw]
  · simp [hw, hf i (by omega)]

end Sys2Proof.Machine
end

