-- ==== Sys2Proof/Laws/State.lean ====
section
/-! SUPPORT. One lemma per field of State for each update of it, so that no later proof unfolds a record update. -/

namespace Sys2Proof.Machine

@[simp] theorem respond_result (r : Response) (s : State) : (respond r s).result = r.result := rfl
@[simp] theorem respond_err (r : Response) (s : State) : (respond r s).err = r.err.code := rfl
@[simp] theorem respond_sticky (r : Response) (s : State) :
    (respond r s).sticky = s.sticky ||| r.err.stickyMask := rfl
@[simp] theorem respond_rspValid (r : Response) (s : State) : (respond r s).rspValid = 1#1 := rfl
@[simp] theorem respond_host (r : Response) (s : State) : (respond r s).host = s.host := rfl

@[simp] theorem resetEdge_result (s : State) : (resetEdge s).result = 0#64 := rfl
@[simp] theorem resetEdge_err (s : State) : (resetEdge s).err = 0b00#2 := rfl
@[simp] theorem resetEdge_sticky (s : State) : (resetEdge s).sticky = 0b000#3 := rfl
@[simp] theorem resetEdge_rspValid (s : State) : (resetEdge s).rspValid = 0#1 := rfl
@[simp] theorem resetEdge_host (s : State) : (resetEdge s).host = s.host := rfl

@[simp] theorem idleEdge_result (s : State) : (idleEdge s).result = s.result := rfl
@[simp] theorem idleEdge_err (s : State) : (idleEdge s).err = s.err := rfl
@[simp] theorem idleEdge_sticky (s : State) : (idleEdge s).sticky = s.sticky := rfl
@[simp] theorem idleEdge_rspValid (s : State) : (idleEdge s).rspValid = 0#1 := rfl
@[simp] theorem idleEdge_host (s : State) : (idleEdge s).host = s.host := rfl

@[simp] theorem advanceHost_result (s : State) : (advanceHost s).result = s.result := rfl
@[simp] theorem advanceHost_err (s : State) : (advanceHost s).err = s.err := rfl
@[simp] theorem advanceHost_sticky (s : State) : (advanceHost s).sticky = s.sticky := rfl
@[simp] theorem advanceHost_rspValid (s : State) : (advanceHost s).rspValid = s.rspValid := rfl
@[simp] theorem advanceHost_host (s : State) : (advanceHost s).host = s.host.tail := rfl

@[simp] theorem presentCommand_result (c : Command) (s : State) : (presentCommand c s).result = s.result := rfl
@[simp] theorem presentCommand_err (c : Command) (s : State) : (presentCommand c s).err = s.err := rfl
@[simp] theorem presentCommand_sticky (c : Command) (s : State) : (presentCommand c s).sticky = s.sticky := rfl
@[simp] theorem presentCommand_rspValid (c : Command) (s : State) :
    (presentCommand c s).rspValid = s.rspValid := rfl
@[simp] theorem presentCommand_host (c : Command) (s : State) :
    (presentCommand c s).host = ⟨true, true, c.ctl, .bits c.word, .bits c.value⟩ :: s.host := rfl

@[simp] theorem advanceHost_presentCommand (c : Command) (s : State) :
    advanceHost (presentCommand c s) = s := rfl

@[simp] theorem raise_result (e : ErrCode) : (raise e).result = 0#64 := rfl
@[simp] theorem raise_err (e : ErrCode) : (raise e).err = e := rfl

@[simp] theorem State.txn_result (s : State) : s.txn.result = s.result := rfl
@[simp] theorem State.txn_err (s : State) : s.txn.err = s.err := rfl
@[simp] theorem State.txn_sticky (s : State) : s.txn.sticky = s.sticky := rfl

/-- Reading the ports shows the registers (R21). -/
theorem State.outputs_eq (s : State) : s.outputs = ⟨s.rspValid, s.result, s.err, s.sticky⟩ := rfl

end Sys2Proof.Machine
end

