-- ==== Sys2Proof/Laws/Step.lean ====
section
/-! SUPPORT. Everything a command and an edge can do, said once. -/

namespace Sys2Proof.Machine

@[simp] theorem complete_eq (r : Response) (s : State) : complete r s = .next (respond r s) := rfl

/-- A decoded command answers what R66's function gives for its buses. -/
theorem exec_decode (c : Command) (s : State) : exec (decode c) s = .next (respond (codecResponse c) s) := by
  have hop : (c.ctl.extractLsb' 0 3).toNat =
      (c.ctl.getLsbD 2).toNat * 4 + (c.ctl.getLsbD 1).toNat * 2 + (c.ctl.getLsbD 0).toNat := by
    rw [BitVec.extractLsb'_toNat, Nat.shiftRight_zero, BitVec.getLsbD, BitVec.getLsbD, BitVec.getLsbD,
      Nat.toNat_testBit, Nat.toNat_testBit, Nat.toNat_testBit]
    omega
  unfold decode codecResponse
  rw [hop]
  split <;> rename_i h2 h1 h0 <;> rw [h2, h1, h0] <;> rfl

/-- A command's response does not depend on the state. -/
theorem exec_eq_respond (i : Instr) : ∃ r, ∀ s, exec i s = .next (respond r s) := by
  cases i <;> exact ⟨_, fun s => rfl⟩

/-- Everything one edge can do. -/
theorem step_next_cases {s t : State} (h : step s = .next t) :
    (nextInput s = .reset ∧ t = resetEdge (advanceHost s)) ∨
    (nextInput s = .idle ∧ t = idleEdge (advanceHost s)) ∨
    (∃ c, nextInput s = .cmd c ∧ t = respond (codecResponse c) (advanceHost s)) := by
  unfold step at h
  split at h
  · next hi => exact .inl ⟨hi, (Host.Outcome.next.inj h).symm⟩
  · next hi => exact .inr (.inl ⟨hi, (Host.Outcome.next.inj h).symm⟩)
  · next c hi =>
    rw [exec_decode] at h
    exact .inr (.inr ⟨c, hi, (Host.Outcome.next.inj h).symm⟩)

/-- The three inputs of an edge, read off the host's drive. -/
theorem nextInput_reset_iff {s : State} :
    nextInput s = .reset ↔ ∃ h rest, s.host = h :: rest ∧ h.rstN = false := by
  unfold nextInput HostCycle.input
  split
  · next hs => simp [hs]
  · next h rest hs =>
    rw [hs]
    by_cases h1 : h.rstN = false
    · simp [h1]
    · by_cases h2 : h.cmdValid = false <;> simp [h1, h2]

theorem nextInput_cmd_iff {s : State} {c : Command} :
    nextInput s = .cmd c ↔ ∃ h rest, s.host = h :: rest ∧ h.rstN = true ∧ h.cmdValid = true ∧
      c = h.command s.result := by
  unfold nextInput HostCycle.input
  split
  · next hs => simp [hs]
  · next h rest hs =>
    rw [hs]
    by_cases h1 : h.rstN = false
    · simp [h1]
    · by_cases h2 : h.cmdValid = false
      · simp [h1, h2]
      · rw [if_neg h1, if_neg h2, Input.cmd.injEq]
        constructor
        · rintro rfl
          exact ⟨h, rest, rfl, by simpa using h1, by simpa using h2, rfl⟩
        · rintro ⟨h', rest', heq, -, -, rfl⟩
          rw [(List.cons.inj heq).1]

end Sys2Proof.Machine
end

