-- ==== Sys2Proof/Laws/Exec.lean ====
section
/-! SUPPORT. What each command answers when its precondition holds, in terms of the shared operations, so that no later
proof unfolds a meaning. -/

namespace Sys2Proof.Machine

theorem exec_fitsu_legal {w l : Nat} {x v : Word} {s : State} (h : w ≤ 64) :
    exec (.fitsu w l x v) s = .next (respond ⟨zext64 (fitsUnsigned w v), .ok⟩ s) := by
  rw [exec, execFitsu, fitsuResponse, widthViolation_eq_false.2 h]
  rfl

theorem exec_fitss_legal {w l : Nat} {x v : Word} {s : State} (h : w ≤ 64) :
    exec (.fitss w l x v) s = .next (respond ⟨zext64 (fitsSigned w v), .ok⟩ s) := by
  rw [exec, execFitss, fitssResponse, widthViolation_eq_false.2 h]
  rfl

theorem exec_getu_legal {w l : Nat} {x v : Word} {s : State} (h : w + l ≤ 64) :
    exec (.getu w l x v) s = .next (respond ⟨getField w l x, .ok⟩ s) := by
  rw [exec, execGetu, getuResponse, fieldViolation_eq_false.2 h]
  rfl

theorem exec_gets_legal {w l : Nat} {x v : Word} {s : State} (h : w + l ≤ 64) :
    exec (.gets w l x v) s = .next (respond ⟨sext64 (getField w l x) w, .ok⟩ s) := by
  rw [exec, execGets, getsResponse, fieldViolation_eq_false.2 h]
  rfl

theorem exec_setu_legal {w l : Nat} {x v : Word} {s : State} (h : w + l ≤ 64) :
    exec (.setu w l x v) s =
      .next (respond (if fitsUnsigned w v = true then ⟨setField w l x v, .ok⟩ else raise .overflow) s) := by
  rw [exec, execSetu, setuResponse, fieldViolation_eq_false.2 h]
  cases fitsUnsigned w v <;> rfl

theorem exec_sets_legal {w l : Nat} {x v : Word} {s : State} (h : w + l ≤ 64) :
    exec (.sets w l x v) s =
      .next (respond (if fitsSigned w v = true then ⟨setField w l x (v &&& mask w), .ok⟩ else raise .overflow) s) := by
  rw [exec, execSets, setsResponse, fieldViolation_eq_false.2 h]
  cases fitsSigned w v <;> rfl

/-- What an outcome does to each sticky bit (R29). -/
theorem getLsbD_or_stickyMask (e : ErrCode) (x : BitVec 3) :
    ((x ||| e.stickyMask).getLsbD 0 = (x.getLsbD 0 || e.code == 0b01#2)) ∧
    ((x ||| e.stickyMask).getLsbD 1 = (x.getLsbD 1 || e.code == 0b10#2)) ∧
    ((x ||| e.stickyMask).getLsbD 2 = (x.getLsbD 2 || e.code == 0b11#2)) := by
  cases e <;> simp [ErrCode.stickyMask, ErrCode.code]

end Sys2Proof.Machine
end

