-- ==== Sys2Proof/Laws/PerInstr.lean ====
section
/-! SUPPORT. One lemma per constructor of Instr: the encoder's control word is `(lsb << 10) | (width << 3) | op` as a number,
with the opcode R63 gives the constructor. -/

namespace Sys2Proof.Laws.EncodedCtl

/-- The control word of a well-formed command, as a number (R69). -/
def Statement (i : Instr) : Prop :=
  i.WellFormed → (encode i).ctl.toNat = i.lsb * 1024 + i.width * 8 + i.opcode

theorem fitsu (width lsb : Nat) (word value : Word) : Statement (.fitsu width lsb word value) :=
  fun h => toNat_packCtl (by decide) h.1 h.2

theorem fitss (width lsb : Nat) (word value : Word) : Statement (.fitss width lsb word value) :=
  fun h => toNat_packCtl (by decide) h.1 h.2

theorem getu (width lsb : Nat) (word value : Word) : Statement (.getu width lsb word value) :=
  fun h => toNat_packCtl (by decide) h.1 h.2

theorem gets (width lsb : Nat) (word value : Word) : Statement (.gets width lsb word value) :=
  fun h => toNat_packCtl (by decide) h.1 h.2

theorem setu (width lsb : Nat) (word value : Word) : Statement (.setu width lsb word value) :=
  fun h => toNat_packCtl (by decide) h.1 h.2

theorem sets (width lsb : Nat) (word value : Word) : Statement (.sets width lsb word value) :=
  fun h => toNat_packCtl (by decide) h.1 h.2

theorem reserved110 (width lsb : Nat) (word value : Word) : Statement (.reserved110 width lsb word value) :=
  fun h => toNat_packCtl (by decide) h.1 h.2

theorem reserved111 (width lsb : Nat) (word value : Word) : Statement (.reserved111 width lsb word value) :=
  fun h => toNat_packCtl (by decide) h.1 h.2

end Sys2Proof.Laws.EncodedCtl
end

