-- ==== Sys2Proof/Tests/Slice0.lean ====
section
/-! SUPPORT. Tests, with expected results from spec/95_test_vectors.md and the rules, and for each statement with
hypotheses a named witness that meets them. -/

namespace Sys2Proof.Tests

open Sys2Proof.Machine

/-- The state after one step, if the step answers one. -/
def after (o : Host.Outcome State Fault Refusal) : Option State :=
  match o with
  | .next t => some t
  | .fault _ => none
  | .refused _ => none

/-- RESULT, ERR, STICKY and RSP_VALID after one command from reset, its buses written out. -/
def answer (ctl : Ctl) (word value : Word) : Option (BitVec 64 × BitVec 2 × BitVec 3 × BitVec 1) :=
  (after (step (presentCommand ⟨ctl, word, value⟩ State.reset))).map fun t => (t.result, t.err, t.sticky, t.rspValid)

/-- A reset state with other register values, which no reset leaves. -/
def dirty : State := { result := 0xDEAD#64, err := 0b01#2, sticky := 0b001#3, rspValid := 1#1, host := [] }

/-- An accepting cycle. -/
def cycle (ctl : Ctl) (word value : BusDrive) : HostCycle := ⟨true, true, ctl, word, value⟩

/-! ## WellFormed refuses what the control word cannot carry (R60, R67) -/

theorem test_width_128_is_ill_formed : ¬ (Instr.setu 128 0 0#64 0#64).WellFormed := by decide
theorem test_lsb_128_is_ill_formed : ¬ (Instr.getu 0 128 0#64 0#64).WellFormed := by decide
theorem test_127_127_is_well_formed : (Instr.reserved111 127 127 0#64 0#64).WellFormed := by decide

/-! ## Decoding, from words written out bit by bit: `LLLLLLL WWWWWWW OOO` (R60, R63) -/

theorem test_decode_fitsu : decode ⟨0b0101000_0001001_000#17, 0#64, 511#64⟩ = .fitsu 9 40 0#64 511#64 := by decide
theorem test_decode_fitss : decode ⟨0b0000000_1111111_001#17, 1#64, 0#64⟩ = .fitss 127 0 1#64 0#64 := by decide
theorem test_decode_getu : decode ⟨0b1000000_0000000_010#17, 1#64, 2#64⟩ = .getu 0 64 1#64 2#64 := by decide
theorem test_decode_gets : decode ⟨0b0111110_0000011_011#17, 1#64, 2#64⟩ = .gets 3 62 1#64 2#64 := by decide
theorem test_decode_setu : decode ⟨0x05C4C#17, 0#64, 0x1FF#64⟩ = .setu 9 23 0#64 511#64 := by decide
theorem test_decode_sets : decode ⟨0x0482D#17, 3#64, 4#64⟩ = .sets 5 18 3#64 4#64 := by decide
theorem test_decode_reserved110 : decode ⟨0x05C4E#17, 0#64, 0x200#64⟩ = .reserved110 9 23 0#64 512#64 := by decide
theorem test_decode_reserved111 : decode ⟨0x1FFFF#17, 1#64, 2#64⟩ = .reserved111 127 127 1#64 2#64 := by decide
theorem test_decode_number_refuses_146_bits : decodeNumber 146 (2 ^ 145) = .error .tooManyBits := by rfl
theorem test_table_row_runs_first :
    (decodeTableWord 17 5).map (fun i => after (step (State.reset.withFetchWord 17 5)) == after (exec i State.reset)) =
      some true := by decide

/-! ## One step per command (95_test_vectors.md, V-FITS, V-GET, V-SET, V-ERR) -/

theorem test_fitsu_9_512 : answer 0x00048#17 0#64 0x200#64 = some (0#64, 0b00#2, 0b000#3, 1#1) := by decide
theorem test_fitsu_64_all_ones :
    answer 0x00200#17 0#64 0xFFFFFFFFFFFFFFFF#64 = some (1#64, 0b00#2, 0b000#3, 1#1) := by decide
theorem test_fitss_5_minus_16 :
    answer 0x00029#17 0#64 0xFFFFFFFFFFFFFFF0#64 = some (1#64, 0b00#2, 0b000#3, 1#1) := by decide
theorem test_fitss_127_is_precondition : answer 0x003F9#17 0#64 0#64 = some (0#64, 0b10#2, 0b010#3, 1#1) := by decide
theorem test_getu_12_20 :
    answer 0x05062#17 0x0123456789ABCDEF#64 0#64 = some (0x89A#64, 0b00#2, 0b000#3, 1#1) := by decide
theorem test_getu_4_61_is_precondition :
    answer 0x0F422#17 0x0123456789ABCDEF#64 0#64 = some (0#64, 0b10#2, 0b010#3, 1#1) := by decide
theorem test_gets_5_18 :
    answer 0x0482B#17 0xFFC5E0A5#64 0#64 = some (0xFFFFFFFFFFFFFFF1#64, 0b00#2, 0b000#3, 1#1) := by decide
theorem test_gets_width_0 :
    answer 0x00003#17 0xFFFFFFFFFFFFFFFF#64 0#64 = some (0#64, 0b00#2, 0b000#3, 1#1) := by decide
theorem test_setu_8_0_keeps_other_bits :
    answer 0x00044#17 0x0123456789ABCDEF#64 0x5A#64 = some (0x0123456789ABCD5A#64, 0b00#2, 0b000#3, 1#1) := by decide
theorem test_setu_65_is_precondition_not_overflow :
    answer 0x0020C#17 0#64 0xFFFFFFFFFFFFFFFF#64 = some (0#64, 0b10#2, 0b010#3, 1#1) := by decide
theorem test_sets_5_18_minus_15 :
    answer 0x0482D#17 0xFF800000#64 0xFFFFFFFFFFFFFFF1#64 = some (0xFFC40000#64, 0b00#2, 0b000#3, 1#1) := by decide
theorem test_sets_5_18_16_overflows : answer 0x0482D#17 0#64 16#64 = some (0#64, 0b01#2, 0b001#3, 1#1) := by decide
theorem test_reserved110 : answer 0x05C4E#17 0#64 0x200#64 = some (0#64, 0b11#2, 0b100#3, 1#1) := by decide
theorem test_reserved111 :
    answer 0x1FFFF#17 0xFFFFFFFFFFFFFFFF#64 0xFFFFFFFFFFFFFFFF#64 = some (0#64, 0b11#2, 0b100#3, 1#1) := by decide

/-! ## Edges (95_test_vectors.md, V-CYC, P1, P3) -/

theorem test_reset_edge_drops_the_command :
    after (step { dirty with host := [⟨false, true, 0x05C4C#17, .bits 0#64, .bits 512#64⟩] }) = some State.reset := by decide
theorem test_idle_edge_keeps_result_err_sticky :
    after (step { dirty with host := [⟨true, false, 0x1FFFF#17, .bits 7#64, .rspResult⟩] }) =
      some { dirty with rspValid := 0#1 } := by decide
theorem test_ok_command_keeps_sticky :
    (after (step { dirty with host := [cycle 0x05C4C#17 (.bits 0#64) (.bits 511#64)] })).map
      (fun t => (t.result, t.err, t.sticky)) = some (0xFF800000#64, 0b00#2, 0b001#3) := by decide
theorem test_res_operand_takes_the_result :
    (after (step { State.reset with
        result := 0xFF800000#64, host := [cycle 0x0482D#17 .rspResult (.bits 0xFFFFFFFFFFFFFFF1#64)] })).map
      (fun t => t.result) = some 0xFFC40000#64 := by decide

/-! ## The host notation (R67, R69) -/

theorem test_read_setu_line :
    readLine "setu 9, 23, 0, 0x1_FF  ; nine bits".toList = some (.setu 9 23 (.int 0) (.int 511)) := by decide
theorem test_read_res_and_negative :
    readLine "SETS 5, 18, RES, -15".toList = some (.sets 5 18 .res (.int (-15))) := by decide
theorem test_line_width_128_is_an_error : (Line.getu 128 0 (.int 0)).cycle = none := by decide
theorem test_value_2_pow_64_is_an_error : (Line.fitsu 64 (.int (2 ^ 64))).cycle = none := by decide

/-! ## Witnesses: the hypotheses of each statement can be met together -/

theorem witness_ResetEdgeWritesResetValues :
    ∃ (s : State) (h : HostCycle) (rest : List HostCycle), s.host = h :: rest ∧ h.rstN = false :=
  ⟨{ dirty with host := [resetCycle] }, _, _, rfl, rfl⟩

theorem witness_ResetEdgeAloneClearsSticky :
    ∃ s t : State, step s = .next t ∧ s.sticky.getLsbD 0 = true ∧ t.sticky.getLsbD 0 = false :=
  ⟨{ dirty with host := [resetCycle] }, _, rfl, by decide, by decide⟩

theorem witness_IdleEdgeClearsOnlyRspValid :
    ∃ (s : State) (h : HostCycle) (rest : List HostCycle), s.host = h :: rest ∧ h.rstN = true ∧ h.cmdValid = false :=
  ⟨{ dirty with host := [idleCycle] }, _, _, rfl, rfl, rfl⟩

theorem witness_SilentHostLeavesTheBlockIdle : ∃ s : State, s.host = [] ∧ s.rspValid = 1#1 := ⟨dirty, rfl, rfl⟩

theorem witness_AcceptedCommandWritesTheFourRegisters :
    ∃ (s : State) (h : HostCycle) (rest : List HostCycle) (r : Word) (e : BitVec 2),
      s.host = h :: rest ∧ h.rstN = true ∧ h.cmdValid = true ∧
      r = (codecResponse ⟨h.cmdCtl, h.cmdWord.sample s.result, h.cmdValue.sample s.result⟩).result ∧
      e = (codecResponse ⟨h.cmdCtl, h.cmdWord.sample s.result, h.cmdValue.sample s.result⟩).err.code :=
  ⟨{ dirty with host := [cycle 0x0482D#17 .rspResult (.bits 16#64)] }, _, _, 0#64, 0b01#2, rfl, rfl, rfl, by decide, by decide⟩

theorem witness_AcceptingStepRunsTheDecodedCommand :
    ∃ (s : State) (h : HostCycle) (rest : List HostCycle) (i : Instr),
      s.host = h :: rest ∧ h.rstN = true ∧ h.cmdValid = true ∧
      decode ⟨h.cmdCtl, h.cmdWord.sample s.result, h.cmdValue.sample s.result⟩ = i :=
  ⟨{ dirty with host := [cycle 0x0482D#17 .rspResult (.bits 15#64)] }, _, _, .sets 5 18 0xDEAD#64 15#64, rfl, rfl, rfl,
    by decide⟩

theorem witness_RspValid_after_a_command :
    ∃ (s t : State) (h : HostCycle) (rest : List HostCycle), step s = .next t ∧ s.host = h :: rest ∧ t.rspValid = 1#1 :=
  ⟨{ dirty with host := [cycle 0x00044#17 (.bits 0#64) (.bits 90#64)] }, _, _, _, rfl, rfl, rfl⟩

theorem witness_RspValid_after_idle_and_reset :
    (∃ s t : State, step s = .next t ∧ t.rspValid ≠ 1#1 ∧ t.result ≠ 0#64) ∧
    (∃ (s t : State) (h : HostCycle) (rest : List HostCycle), step s = .next t ∧ t.rspValid ≠ 1#1 ∧
      s.host = h :: rest ∧ h.rstN = false) :=
  ⟨⟨{ dirty with host := [idleCycle] }, _, rfl, by decide, by decide⟩,
    ⟨{ dirty with host := [resetCycle] }, _, _, _, rfl, by decide, rfl, rfl⟩⟩

theorem witness_Sticky_of_a_command : ∃ (i : Instr) (s t : State), exec i s = .next t ∧ t.err = 0b01#2 :=
  ⟨.setu 9 23 0#64 512#64, dirty, _, rfl, by decide⟩

theorem witness_Sticky_stays :
    ∃ s t : State, step s = .next t ∧ (∀ h rest, s.host = h :: rest → h.rstN = true) ∧ s.sticky.getLsbD 0 = true :=
  ⟨{ dirty with host := [idleCycle] }, _, rfl, by
    intro h rest hh
    cases hh
    rfl, by decide⟩

theorem witness_Errors_each_code :
    (∃ (i : Instr) (s t : State), exec i s = .next t ∧ t.err = 0b00#2) ∧
    (∃ (i : Instr) (s t : State), exec i s = .next t ∧ t.err = 0b01#2) ∧
    (∃ (i : Instr) (s t : State), exec i s = .next t ∧ t.err = 0b10#2) ∧
    (∃ (i : Instr) (s t : State), exec i s = .next t ∧ t.err = 0b11#2) :=
  ⟨⟨.setu 0 64 7#64 0#64, dirty, _, rfl, by decide⟩, ⟨.sets 1 0 0#64 1#64, dirty, _, rfl, by decide⟩,
    ⟨.fitsu 65 0 0#64 0#64, dirty, _, rfl, by decide⟩, ⟨.reserved110 0 0 0#64 0#64, dirty, _, rfl, by decide⟩⟩

theorem witness_Errors_two_commands_same_response :
    ∃ (i j : Instr) (s t u : State), i ≠ j ∧ exec i s = .next t ∧ exec j s = .next u ∧ t.result = u.result ∧ t.err = u.err :=
  ⟨.setu 9 23 0#64 512#64, .sets 5 18 0#64 16#64, dirty, _, _, by decide, rfl, rfl, by decide, by decide⟩

/-- The op fields of the eight encoding clauses, at the largest operands. -/
theorem witness_encoding_clauses :
    (0x1FFF8#17).toNat % 8 = 0b000 ∧ (0x1FFF9#17).toNat % 8 = 0b001 ∧ (0x1FFFA#17).toNat % 8 = 0b010 ∧
    (0x1FFFB#17).toNat % 8 = 0b011 ∧ (0x1FFFC#17).toNat % 8 = 0b100 ∧ (0x1FFFD#17).toNat % 8 = 0b101 ∧
    (0x1FFFE#17).toNat % 8 = 0b110 ∧ (0x1FFFF#17).toNat % 8 = 0b111 := by decide

/-- The two precondition clauses at their boundaries: widths 64 and 65, and `width + lsb` 64 and 65. -/
theorem witness_BrokenPrecondition :
    (∃ (f : Nat → Nat → Word → Word → Instr) (width lsb : Nat), (f = .fitsu ∨ f = .fitss) ∧ 64 < width ∧ lsb = 0) ∧
    (∃ (f : Nat → Nat → Word → Word → Instr) (width lsb : Nat),
      (f = .getu ∨ f = .gets ∨ f = .setu ∨ f = .sets) ∧ (64 < width ∨ 64 < width + lsb) ∧ width = 1) ∧
    (∃ (f : Nat → Nat → Word → Word → Instr) (width lsb : Nat) (s t : State), (f = .fitsu ∨ f = .fitss) ∧ width ≤ 64 ∧
      64 < width + lsb ∧ exec (f width lsb 0#64 0#64) s = .next t) ∧
    (∃ (f : Nat → Nat → Word → Word → Instr) (width lsb : Nat) (s t : State),
      (f = .getu ∨ f = .gets ∨ f = .setu ∨ f = .sets) ∧ width + lsb ≤ 64 ∧ width = 1 ∧ lsb = 63 ∧
      exec (f width lsb 0#64 0#64) s = .next t) ∧
    (∃ s : State, s.sticky.getLsbD 1 = true) :=
  ⟨⟨.fitss, 65, 0, .inr rfl, by decide, rfl⟩, ⟨.sets, 1, 64, .inr (.inr (.inr rfl)), by decide, rfl⟩,
    ⟨.fitsu, 64, 127, dirty, _, .inl rfl, by decide, by decide, rfl⟩,
    ⟨.gets, 1, 63, dirty, _, .inr (.inl rfl), by decide, rfl, rfl, rfl⟩, ⟨{ dirty with sticky := 0b010#3 }, by decide⟩⟩

/-- Overflow, on both sides of each boundary and above the precondition. -/
theorem witness_Overflow :
    (∃ (width lsb : Nat) (value : Word) (s t : State), width + lsb ≤ 64 ∧ exec (.setu width lsb 0#64 value) s = .next t ∧
      t.err = 0b01#2) ∧
    (∃ (width lsb : Nat) (value : Word) (s t : State), width + lsb ≤ 64 ∧ exec (.sets width lsb 0#64 value) s = .next t ∧
      t.err = 0b00#2) ∧
    (∃ (width lsb : Nat) (value : Word) (s t : State), 64 < width + lsb ∧ exec (.sets width lsb 0#64 value) s = .next t ∧
      t.err = 0b10#2) ∧
    (∃ (width lsb : Nat) (value : Word) (s t : State), exec (.gets width lsb 0#64 value) s = .next t ∧ t.err = 0b00#2) :=
  ⟨⟨63, 1, 0x8000000000000000#64, dirty, _, by decide, rfl, by decide⟩,
    ⟨5, 59, 0xFFFFFFFFFFFFFFF0#64, dirty, _, by decide, rfl, by decide⟩,
    ⟨5, 60, 16#64, dirty, _, by decide, rfl, by decide⟩, ⟨64, 0, 0#64, dirty, _, rfl, by decide⟩⟩

theorem witness_Priority :
    (∃ s t : State, exec (.reserved111 127 127 0#64 0#64) s = .next t) ∧
    (∃ s t : State, 64 < 8 + 57 ∧ exec (.setu 8 57 0#64 256#64) s = .next t) ∧
    (∃ s t : State, 9 + 55 ≤ 64 ∧ 9 < 64 ∧ 2 ^ 9 ≤ (512#64).toNat ∧ exec (.setu 9 55 0#64 512#64) s = .next t) ∧
    (∃ s t : State, 1 + 63 ≤ 64 ∧ 0 < 1 ∧ 1 < 64 ∧ (2 : Int) ^ (1 - 1) ≤ (1#64).toInt ∧
      exec (.sets 1 63 0#64 1#64) s = .next t) ∧
    (∃ s t : State, 0 + 64 ≤ 64 ∧ (0xFFFFFFFFFFFFFFFF#64).toInt ≠ 0 ∧
      exec (.sets 0 64 0#64 0xFFFFFFFFFFFFFFFF#64) s = .next t) ∧
    (∃ s t : State, exec (.setu 65 0 0#64 0xFFFFFFFFFFFFFFFF#64) s = .next t) :=
  ⟨⟨dirty, _, rfl⟩, ⟨dirty, _, by decide, rfl⟩, ⟨dirty, _, by decide, by decide, by decide, rfl⟩,
    ⟨dirty, _, by decide, by decide, by decide, by decide, rfl⟩, ⟨dirty, _, by decide, by decide, rfl⟩, ⟨dirty, _, rfl⟩⟩

/-- The width clauses of FITSU and FITSS meet at 64 and 65. -/
theorem witness_Fits_clauses : ∃ width width' : Nat, width ≤ 64 ∧ 64 < width' ∧ width' = width + 1 := ⟨64, 65, by decide⟩

/-- The clauses of GETU and GETS meet at `width + lsb` 64 and 65; width 0 at lsb 64 is legal. -/
theorem witness_Get_clauses :
    ∃ width lsb lsb' : Nat, width + lsb ≤ 64 ∧ (64 < width ∨ 64 < width + lsb') ∧ lsb' = lsb + 1 := ⟨0, 64, 65, by decide⟩

/-- The three clauses of SETU, with 2^9 - 1 and 2^9. -/
theorem witness_Setu_clauses :
    (∃ (width lsb : Nat) (value : Word), width + lsb ≤ 64 ∧ (width = 64 ∨ value.toNat < 2 ^ width) ∧ width = 9) ∧
    (∃ (width lsb : Nat) (value : Word), width + lsb ≤ 64 ∧ width ≠ 64 ∧ 2 ^ width ≤ value.toNat) ∧
    (∃ width lsb : Nat, 64 < width ∨ 64 < width + lsb) :=
  ⟨⟨9, 55, 511#64, by decide, by decide, rfl⟩, ⟨9, 55, 512#64, by decide, by decide, by decide⟩, ⟨9, 56, by decide⟩⟩

/-- The three clauses of SETS, at widths 0, 5 and 64 and both ends of the signed range. -/
theorem witness_Sets_clauses :
    (∃ (width lsb : Nat) (value : Word), width + lsb ≤ 64 ∧ 0 < width ∧ -(2 : Int) ^ (width - 1) ≤ value.toInt ∧
      value.toInt < (2 : Int) ^ (width - 1)) ∧
    (∃ (width lsb : Nat) (value : Word), width + lsb ≤ 64 ∧ width = 0 ∧ value.toInt = 0) ∧
    (∃ width lsb : Nat, width + lsb ≤ 64 ∧ width = 64) ∧
    (∃ (width lsb : Nat) (value : Word), width + lsb ≤ 64 ∧ width = 0 ∧ value.toInt ≠ 0) ∧
    (∃ (width lsb : Nat) (value : Word), width + lsb ≤ 64 ∧ 0 < width ∧ width < 64 ∧
      value.toInt < -(2 : Int) ^ (width - 1)) ∧
    (∃ (width lsb : Nat) (value : Word), width + lsb ≤ 64 ∧ 0 < width ∧ width < 64 ∧
      (2 : Int) ^ (width - 1) ≤ value.toInt) ∧
    (∃ width lsb : Nat, 64 < width ∨ 64 < width + lsb) :=
  ⟨⟨5, 59, 0xFFFFFFFFFFFFFFF0#64, by decide, by decide, by decide, by decide⟩, ⟨0, 64, 0#64, by decide, rfl, by decide⟩,
    ⟨64, 0, by decide, rfl⟩, ⟨0, 0, 1#64, by decide, rfl, by decide⟩,
    ⟨5, 59, 0xFFFFFFFFFFFFFFEF#64, by decide, by decide, by decide, by decide⟩,
    ⟨5, 59, 16#64, by decide, by decide, by decide, by decide⟩, ⟨5, 60, by decide⟩⟩

theorem witness_UnusedOperands :
    (∃ width : Nat, width ≤ 64) ∧ (∃ f : Nat → Nat → Word → Word → Instr, f = .setu ∨ f = .sets) :=
  ⟨⟨64, by decide⟩, ⟨.sets, .inr rfl⟩⟩

theorem witness_FitsDecidesOverflow :
    (∃ (width lsb : Nat) (value : Word) (s t u : State), width + lsb ≤ 64 ∧ exec (.setu width lsb 0#64 value) s = .next t ∧
      exec (.fitsu width 0 0#64 value) s = .next u ∧ t.err = 0b01#2 ∧ u.result = 0#64) ∧
    (∃ (width lsb : Nat) (value : Word) (s t u : State), width + lsb ≤ 64 ∧ exec (.sets width lsb 0#64 value) s = .next t ∧
      exec (.fitss width 0 0#64 value) s = .next u ∧ t.err = 0b00#2 ∧ u.result = 1#64) :=
  ⟨⟨9, 23, 512#64, dirty, _, _, by decide, rfl, rfl, by decide, by decide⟩,
    ⟨64, 0, 512#64, dirty, _, _, by decide, rfl, rfl, by decide, by decide⟩⟩

theorem witness_FitsIsMonotone :
    (∃ (w : Nat) (v : Word) (s t u : State), w < 64 ∧ exec (.fitsu w 0 0#64 v) s = .next t ∧
      exec (.fitsu (w + 1) 0 0#64 v) s = .next u ∧ t.result = 1#64) ∧
    (∃ (w : Nat) (v : Word) (s t u : State), w < 64 ∧ exec (.fitss w 0 0#64 v) s = .next t ∧
      exec (.fitss (w + 1) 0 0#64 v) s = .next u ∧ t.result = 1#64) ∧
    (∃ (w : Nat) (v : Word) (s t u : State), w < 64 ∧ v.toNat < 2 ^ 63 ∧ exec (.fitsu w 0 0#64 v) s = .next t ∧
      exec (.fitss (w + 1) 0 0#64 v) s = .next u ∧ t.result = 1#64) :=
  ⟨⟨63, 5#64, dirty, _, _, by decide, rfl, rfl, by decide⟩, ⟨0, 0#64, dirty, _, _, by decide, rfl, rfl, by decide⟩,
    ⟨63, 5#64, dirty, _, _, by decide, by decide, rfl, rfl, by decide⟩⟩

theorem witness_GetsIsTheSignExtension :
    (∃ (width lsb : Nat) (word : Word) (s t u : State), width + lsb ≤ 64 ∧ exec (.getu width lsb word 0#64) s = .next t ∧
      exec (.gets width lsb word 0#64) s = .next u ∧ width < 64 ∧ 1 ≤ width ∧ t.result.getLsbD (width - 1) = false) ∧
    (∃ (width lsb : Nat) (word : Word) (s t u : State), width + lsb ≤ 64 ∧ exec (.getu width lsb word 0#64) s = .next t ∧
      exec (.gets width lsb word 0#64) s = .next u ∧ 1 ≤ width ∧ u.result ≠ t.result) :=
  ⟨⟨8, 56, 0x0123456789ABCDEF#64, dirty, _, _, by decide, rfl, rfl, by decide, by decide, by decide⟩,
    ⟨12, 20, 0x0123456789ABCDEF#64, dirty, _, _, by decide, rfl, rfl, by decide, by decide⟩⟩

theorem witness_GetReturnsWhatSetWrote :
    (∃ s t : State, exec (.setu 9 23 0#64 511#64) s = .next t ∧ t.err = 0b00#2) ∧
    (∃ s t : State, exec (.sets 8 56 0#64 0xFFFFFFFFFFFFFF80#64) s = .next t ∧ t.err = 0b00#2) :=
  ⟨⟨dirty, _, rfl, by decide⟩, ⟨dirty, _, rfl, by decide⟩⟩

theorem witness_DisjointFields :
    ∃ (f g h : Nat → Nat → Word → Word → Instr) (w1 l1 w2 l2 : Nat) (word v1 v2 : Word) (s a b : State),
      (f = .setu ∨ f = .sets) ∧ (l1 + w1 ≤ l2 ∨ l2 + w2 ≤ l1) ∧ exec (f w1 l1 word v1) s = .next a ∧ a.err = 0b00#2 ∧
      (g = .setu ∨ g = .sets) ∧ exec (g w2 l2 a.result v2) s = .next b ∧ b.err = 0b00#2 ∧ (h = .getu ∨ h = .gets) :=
  ⟨.setu, .sets, .gets, 9, 23, 5, 18, 0#64, 511#64, 0xFFFFFFFFFFFFFFF1#64, dirty, _, _, .inl rfl, by decide, rfl, by decide,
    .inr rfl, rfl, by decide, .inr rfl⟩

theorem witness_SetOverwrites :
    (∃ s a b c : State, exec (.sets 5 18 0#64 15#64) s = .next a ∧ a.err = 0b00#2 ∧
      exec (.sets 5 18 a.result 0xFFFFFFFFFFFFFFF0#64) s = .next b ∧ b.err = 0b00#2 ∧
      exec (.sets 5 18 0#64 0xFFFFFFFFFFFFFFF0#64) s = .next c ∧ c.err = 0b00#2) ∧
    (∃ (f g : Nat → Nat → Word → Word → Instr) (w l : Nat) (s a : State),
      ((f = .setu ∧ g = .getu) ∨ (f = .sets ∧ g = .gets)) ∧ w + l ≤ 64 ∧
      exec (g w l 0x0123456789ABCDEF#64 0#64) s = .next a) :=
  ⟨⟨dirty, _, _, _, rfl, by decide, rfl, by decide, rfl, by decide⟩,
    ⟨.sets, .gets, 12, 20, dirty, _, .inr ⟨rfl, rfl⟩, by decide, rfl⟩⟩

theorem witness_ResultShape :
    (∃ s t : State, exec (.fitss 5 0 0#64 15#64) s = .next t) ∧
    (∃ (s t : State) (i : Nat), exec (.getu 1 63 0xFFFFFFFFFFFFFFFF#64 0#64) s = .next t ∧ 1 ≤ i) ∧
    (∃ (s t : State) (i : Nat), exec (.gets 1 0 1#64 0#64) s = .next t ∧ 1 ≤ 1 ∧ 1 ≤ i ∧ i < 64) :=
  ⟨⟨dirty, _, rfl⟩, ⟨dirty, _, 1, rfl, by decide⟩, ⟨dirty, _, 63, rfl, by decide⟩⟩

theorem witness_Shifts : (∃ n : Nat, 64 ≤ n) ∧ (∃ n : Nat, n < 64) ∧ (∃ w : Nat, w ≤ 64) :=
  ⟨⟨64, by decide⟩, ⟨63, by decide⟩, ⟨64, by decide⟩⟩

theorem witness_BusReadings :
    (∃ x : Word, x.getLsbD 63 = false) ∧ (∃ x : Word, x.getLsbD 63 = true) :=
  ⟨⟨0x7FFFFFFFFFFFFFFF#64, by decide⟩, ⟨0x8000000000000000#64, by decide⟩⟩

theorem witness_DecodeOfEncode : ∃ i : Instr, i.WellFormed ∧ i.width = 127 ∧ i.lsb = 127 :=
  ⟨.sets 127 127 0#64 0#64, by decide, rfl, rfl⟩

theorem witness_CommandLines :
    (∃ (mk : Nat → Nat → BusToken → BusToken → Line) (op W L : Nat), mk = .rsvd7 ∧ op = 0b111 ∧ W ≤ 127 ∧ L ≤ 127 ∧ L = 127) ∧
    (∃ X : BusToken, X = .res) ∧
    (∃ (V : BusToken) (n : Int), V = .int n ∧ -(2 : Int) ^ 63 ≤ n ∧ n < (2 : Int) ^ 64 ∧ n = 2 ^ 64 - 1) ∧
    (∃ (V : BusToken) (n : Int), V = .int n ∧ -(2 : Int) ^ 63 ≤ n ∧ n < (2 : Int) ^ 64 ∧ n = -(2 ^ 63)) :=
  ⟨⟨.rsvd7, 7, 127, 127, rfl, rfl, by decide, by decide, rfl⟩, ⟨.res, rfl⟩,
    ⟨.int (2 ^ 64 - 1), 2 ^ 64 - 1, rfl, by decide, by decide, rfl⟩, ⟨.int (-(2 ^ 63)), -(2 ^ 63), rfl, by decide, by decide, rfl⟩⟩

theorem witness_Coherent_step : ∃ s t : State, s.Coherent ∧ step s = .next t ∧ t.err = 0b01#2 :=
  ⟨{ State.reset with host := [cycle 0x05C4C#17 (.bits 0#64) (.bits 512#64)] }, _, by decide, rfl, by decide⟩

theorem witness_LegalCommands :
    (∃ (i : Instr) (s t : State), exec i s = .next t ∧ legalCommand i = true) ∧
    (∃ (i : Instr) (s t : State), exec i s = .next t ∧ legalCommand i = false) :=
  ⟨⟨.getu 4 60 0#64 0#64, dirty, _, rfl, by decide⟩, ⟨.getu 4 61 0#64 0#64, dirty, _, rfl, by decide⟩⟩

theorem witness_ResponsesDoNotDependOnTheState :
    ∃ (i : Instr) (s1 s2 t1 t2 : State), s1 ≠ s2 ∧ exec i s1 = .next t1 ∧ exec i s2 = .next t2 :=
  ⟨.getu 8 0 0xEF#64 0#64, dirty, State.reset, _, _, by decide, rfl, rfl⟩

theorem witness_RepeatedCommand : ∃ (i : Instr) (s t : State), exec i s = .next t ∧ s ≠ t :=
  ⟨.sets 5 18 0#64 31#64, State.reset, _, rfl, by decide⟩

theorem witness_ResetErasesThePowerUpState :
    ∃ (s1 s2 : State) (h : HostCycle) (rest : List HostCycle), s1 ≠ s2 ∧ s1.host = h :: rest ∧ s2.host = h :: rest ∧
      h.rstN = false :=
  ⟨{ dirty with host := [resetCycle] }, { State.reset with host := [resetCycle] }, _, _, by decide, rfl, rfl, rfl⟩

theorem witness_IdleCycles :
    ∃ (idles rest : List HostCycle) (s : State), idles ≠ [] ∧ (∀ h ∈ idles, h.rstN = true ∧ h.cmdValid = false) ∧
      s.host = idles ++ rest :=
  ⟨[idleCycle, idleCycle], [resetCycle], { dirty with host := [idleCycle, idleCycle, resetCycle] }, by decide, by decide, rfl⟩

theorem witness_ResOperand :
    ∃ (h1 h2 : HostCycle) (idles rest : List HostCycle) (s a b : State),
      s.host = h1 :: (idles ++ h2 :: rest) ∧ (∀ h ∈ idles, h.rstN = true ∧ h.cmdValid = false) ∧
      h2.rstN = true ∧ h2.cmdValid = true ∧ h2.cmdWord = .rspResult ∧ h2.cmdValue = .rspResult ∧
      step s = .next a ∧ core.run (idles.length + 1) s = .next b ∧ h1.rstN = false :=
  ⟨resetCycle, cycle 0x00044#17 .rspResult .rspResult, [idleCycle], [],
    { dirty with host := [resetCycle, idleCycle, cycle 0x00044#17 .rspResult .rspResult] }, _, _, rfl, by decide, rfl, rfl,
    rfl, rfl, rfl, rfl, rfl⟩

theorem witness_EveryEdgeIsItsTransaction :
    (∃ s t : State, step s = .next t ∧ s.host = []) ∧
    (∃ (s t : State) (h : HostCycle) (rest : List HostCycle), step s = .next t ∧ s.host = h :: rest ∧ h.txn = none) ∧
    (∃ (s t : State) (h : HostCycle) (rest : List HostCycle), step s = .next t ∧ s.host = h :: rest ∧
      h.txn = some .reset) ∧
    (∃ (s t : State) (h : HostCycle) (rest : List HostCycle), step s = .next t ∧ s.host = h :: rest ∧
      h.txn = some (.cmd 0x00044#17 .rspResult (.bits 90#64))) :=
  ⟨⟨dirty, _, rfl, rfl⟩, ⟨{ dirty with host := [idleCycle] }, _, _, _, rfl, rfl, by decide⟩,
    ⟨{ dirty with host := [resetCycle] }, _, _, _, rfl, rfl, by decide⟩,
    ⟨{ dirty with host := [cycle 0x00044#17 .rspResult (.bits 90#64)] }, _, _, _, rfl, rfl, by decide⟩⟩

theorem witness_ResponsesAsIfAlone :
    ∃ cycles : List HostCycle, cycles.length = 2 ∧ ∀ h ∈ cycles, h.cmdWord ≠ .rspResult ∧ h.cmdValue ≠ .rspResult :=
  ⟨[cycle 0x00044#17 (.bits 0#64) (.bits 90#64), idleCycle], rfl, by decide⟩

theorem witness_StickyAtTheEnd :
    ∃ cycles : List HostCycle, (∀ h ∈ cycles, h.rstN = true) ∧ (observe cycles).sticky = 0b001#3 :=
  ⟨[cycle 0x05C4C#17 (.bits 0#64) (.bits 512#64)], by decide, by decide⟩

theorem witness_Instances : ∃ (ss : List State) (k : Nat) (s : State), ss[k]? = some s := ⟨[dirty, State.reset], 1, _, rfl⟩

end Sys2Proof.Tests
end

