-- ==== Sys2Proof/Proofs/Scope.lean ====
section
/-! PROOFS. The spec's primitives on bus values (00_scope.md R9, R10): the readings of a bus as numbers, the shifts and the
mask. -/

namespace Sys2Proof.Machine

/-! ### Shifts and mask as numbers (R10) -/

/-- No bound on `n` is needed: from a shift of 64 on, both sides are 0 (U3). -/
theorem toNat_shl (x : Word) (n : Nat) : (shl x n).toNat = x.toNat * 2 ^ n % 2 ^ 64 := by
  rw [shl_eq_shiftLeft, BitVec.toNat_shiftLeft, Nat.shiftLeft_eq]

/-- No bound on `n` is needed: from a shift of 64 on, both sides are 0 (U3). -/
theorem toNat_shr (x : Word) (n : Nat) : (shr x n).toNat = x.toNat / 2 ^ n := by
  rw [shr_eq_ushiftRight, BitVec.toNat_ushiftRight, Nat.shiftRight_eq_div_pow]

theorem mask_zero : mask 0 = 0#64 := by decide

theorem mask_sixtyFour : mask 64 = 0xFFFFFFFFFFFFFFFF#64 := by decide

/-! ### The two readings of a bus (R9) -/

theorem sint_of_bit63_false {x : Word} (h : x.getLsbD 63 = false) : sint x = (uint x : Int) := by
  rw [sint, h, if_neg Bool.false_ne_true, mul_zero, sub_zero]

theorem sint_of_bit63_true {x : Word} (h : x.getLsbD 63 = true) : sint x = (uint x : Int) - 2 ^ 64 := by
  rw [sint, h, if_pos rfl, mul_one]

theorem neg_two_pow_le_sint (x : Word) : -(2 : Int) ^ 63 ≤ sint x :=
  sint_eq_toInt x ▸ BitVec.le_toInt x

theorem sint_lt_two_pow (x : Word) : sint x < (2 : Int) ^ 63 :=
  sint_eq_toInt x ▸ BitVec.toInt_lt

/-- A bus value is recovered from its signed reading. -/
theorem bits64_sint (x : Word) : bits64 (sint x) = x := by
  rw [bits64, sint_eq_toInt, BitVec.ofInt_toInt]

end Sys2Proof.Machine

namespace Sys2Proof.Proofs.Scope

open Sys2Proof.Machine

/-- Settles O30: the shifts and the mask are read as numbers and as bits by their laws, for every word and shift. -/
theorem shiftsOfSixtyFourOrMoreGiveZero : Obligations.ShiftsOfSixtyFourOrMoreGiveZero :=
  ⟨fun x _ h => ⟨shl_of_le x h, shr_of_le x h⟩,
    fun x n _ => ⟨toNat_shl x n, toNat_shr x n⟩,
    fun _ i h => getLsbD_mask h i,
    mask_zero, mask_sixtyFour⟩

/-- Settles O31: the range and the inverse of `sint` come from the library's two's-complement reading, its two cases from
bit 63. -/
theorem busReadingsAreUnsignedAndTwosComplement : Obligations.BusReadingsAreUnsignedAndTwosComplement :=
  fun x => ⟨x.isLt, neg_two_pow_le_sint x, sint_lt_two_pow x, sint_of_bit63_false, sint_of_bit63_true, bits64_sint x⟩

end Sys2Proof.Proofs.Scope
end

