-- ==== Sys2Proof/Proofs/State.lean ====
section
/-! PROOFS. The registers and the edges that write them (10_state.md): what a step does at each kind of host cycle, its
reading as a transaction, and the run and its sticky bits built on that. -/

namespace Sys2Proof.Machine

/-! ### The step at each kind of host cycle (R29, R30, R140) -/

theorem HostCycle.reset_or_idle_or_accepting (h : HostCycle) :
    h.rstN = false ∨ (h.rstN = true ∧ h.cmdValid = false) ∨ (h.rstN = true ∧ h.cmdValid = true) := by
  cases h.rstN <;> cases h.cmdValid <;> simp

section Cycle

variable {s : State} {h : HostCycle} {rest : List HostCycle}

theorem nextInput_of_cons (hs : s.host = h :: rest) : nextInput s = h.input s.result := by
  rw [nextInput, hs]

theorem advanceHost_of_cons (hs : s.host = h :: rest) : advanceHost s = { s with host := rest } := by
  rw [advanceHost, hs, List.tail_cons]

theorem step_of_silent (hs : s.host = []) : step s = .next (idleEdge s) := by
  have hadv : advanceHost s = s := by
    rw [advanceHost, hs, List.tail_nil, ← hs]
  rw [step, nextInput, hs, hadv]

theorem step_of_reset (hs : s.host = h :: rest) (hr : h.rstN = false) :
    step s = .next (resetEdge { s with host := rest }) := by
  rw [step, nextInput_of_cons hs, HostCycle.input, if_pos hr, advanceHost_of_cons hs]

theorem step_of_idle (hs : s.host = h :: rest) (hr : h.rstN = true) (hv : h.cmdValid = false) :
    step s = .next (idleEdge { s with host := rest }) := by
  rw [step, nextInput_of_cons hs, HostCycle.input, hr, hv, advanceHost_of_cons hs]
  rfl

theorem step_of_accepting (hs : s.host = h :: rest) (hr : h.rstN = true) (hv : h.cmdValid = true) :
    step s = exec (decode (h.command s.result)) { s with host := rest } := by
  rw [step, nextInput_of_cons hs, HostCycle.input, hr, hv, advanceHost_of_cons hs]
  rfl

/-- R29 with R66's function in the place of the decoder and the dispatch. -/
theorem step_of_accepting_eq_respond (hs : s.host = h :: rest) (hr : h.rstN = true) (hv : h.cmdValid = true) :
    step s = .next (respond (codecResponse (h.command s.result)) { s with host := rest }) := by
  rw [step_of_accepting hs hr hv, exec_decode]

end Cycle

/-- RSP_VALID shows whether the edge took a command (R28). -/
theorem rspValid_eq_one_iff {s t : State} (h : step s = .next t) :
    t.rspValid = 1#1 ↔ ∃ c, nextInput s = .cmd c := by
  obtain ⟨hi, rfl⟩ | ⟨hi, rfl⟩ | ⟨c, hi, rfl⟩ := step_next_cases h <;> simp [hi]

/-- Only a reset edge clears a sticky bit (R27, R140). -/
theorem step_keeps_sticky_bit {s t : State} (h : step s = .next t) (hr : nextInput s ≠ .reset) {k : Nat}
    (hk : s.sticky.getLsbD k = true) : t.sticky.getLsbD k = true := by
  obtain ⟨hi, -⟩ | ⟨-, rfl⟩ | ⟨c, -, rfl⟩ := step_next_cases h
  · exact absurd hi hr
  · exact hk
  · simp [hk]

/-! ### The step as a transaction (R36) -/

theorem HostCycle.txn_of_reset {h : HostCycle} (hr : h.rstN = false) : h.txn = some .reset := if_pos hr

theorem HostCycle.txn_of_idle {h : HostCycle} (hr : h.rstN = true) (hv : h.cmdValid = false) : h.txn = none := by
  simp [HostCycle.txn, hr, hv]

theorem HostCycle.txn_of_accepting {h : HostCycle} (hr : h.rstN = true) (hv : h.cmdValid = true) :
    h.txn = some (.cmd h.cmdCtl h.cmdWord h.cmdValue) := by
  simp [HostCycle.txn, hr, hv]

/-- A cycle that is no reset has no reset transaction. -/
theorem HostCycle.txn_ne_reset {h : HostCycle} (hr : h.rstN = true) : h.txn ≠ some .reset := by
  cases hv : h.cmdValid
  · simp [HostCycle.txn_of_idle hr hv]
  · simp [HostCycle.txn_of_accepting hr hv]

/-- The commuting square of R36: one edge answers a next state, whose tuple is that of the cycle's transaction, or the old
one where the cycle carries none, and whose RSP_VALID marks the commands. -/
theorem step_txn_cases {s : State} {h : HostCycle} {rest : List HostCycle} (hs : s.host = h :: rest) :
    ∃ t, step s = .next t ∧ t.host = rest ∧
      ((h.txn = some .reset ∧ t.rspValid ≠ 1#1 ∧ t.txn = txnStep s.txn .reset) ∨
      (h.txn = none ∧ t.rspValid ≠ 1#1 ∧ t.txn = s.txn) ∨
      (∃ ctl word value, h.txn = some (.cmd ctl word value) ∧ t.rspValid = 1#1 ∧
        t.txn = txnStep s.txn (.cmd ctl word value))) := by
  obtain hr | ⟨hr, hv⟩ | ⟨hr, hv⟩ := h.reset_or_idle_or_accepting
  · exact ⟨_, step_of_reset hs hr, rfl, .inl ⟨HostCycle.txn_of_reset hr, by simp, rfl⟩⟩
  · exact ⟨_, step_of_idle hs hr hv, rfl, .inr (.inl ⟨HostCycle.txn_of_idle hr hv, by simp, rfl⟩)⟩
  · exact ⟨_, step_of_accepting_eq_respond hs hr hv, rfl,
      .inr (.inr ⟨_, _, _, HostCycle.txn_of_accepting hr hv, rfl, rfl⟩)⟩

/-- The commands of a run, as the cycle level and the transaction level see them (R36). -/
theorem commandTrace_eq_txnTrace (hs : List HostCycle) :
    ∀ s : State, s.host = hs → commandTrace hs.length s = txnTrace s.txn (hs.filterMap HostCycle.txn) := by
  induction hs with
  | nil => exact fun _ _ => rfl
  | cons h rest ih =>
    intro s hs
    obtain ⟨t, hstep, hrest, ⟨htxn, hrv, ht⟩ | ⟨htxn, hrv, ht⟩ | ⟨ctl, word, value, htxn, hrv, ht⟩⟩ :=
      step_txn_cases hs
    · simp [commandTrace, hstep, hrv, htxn, ih t hrest, ht, txnTrace]
    · simp [commandTrace, hstep, hrv, htxn, ih t hrest, ht]
    · simp [commandTrace, hstep, hrv, htxn, ih t hrest, ht, txnTrace]

theorem run_succ {s t : State} (h : step s = .next t) (k : Nat) : core.run (k + 1) s = core.run k t := by
  have hcore : core.step s = .next t := h
  simp only [Host.Core.run, hcore]

/-- A run over everything the host drives ends with the tuple its transactions give. -/
theorem run_txn (hs : List HostCycle) : ∀ s : State, s.host = hs →
    ∃ t : State, core.run hs.length s = .next t ∧ t.txn = (hs.filterMap HostCycle.txn).foldl txnStep s.txn := by
  induction hs with
  | nil => exact fun s _ => ⟨s, rfl, rfl⟩
  | cons h rest ih =>
    intro s hs
    obtain ⟨t, hstep, hrest, hcases⟩ := step_txn_cases hs
    obtain ⟨u, hrun, hu⟩ := ih t hrest
    refine ⟨u, (run_succ hstep _).trans hrun, hu.trans ?_⟩
    obtain ⟨htxn, -, ht⟩ | ⟨htxn, -, ht⟩ | ⟨ctl, word, value, htxn, -, ht⟩ := hcases <;>
      simp [htxn, ht]

/-! ### The sticky bits of a run (R27, R148) -/

/-- STICKY bit `i` is the one that a response with error code `code` sets. -/
def RecordsError (i : Nat) (code : BitVec 2) : Prop :=
  ∀ (e : ErrCode) (x : BitVec 3), (x ||| e.stickyMask).getLsbD i = (x.getLsbD i || e.code == code)

theorem recordsError_ovfS : RecordsError 0 0b01#2 := fun e x => (getLsbD_or_stickyMask e x).1

theorem recordsError_preS : RecordsError 1 0b10#2 := fun e x => (getLsbD_or_stickyMask e x).2.1

theorem recordsError_illS : RecordsError 2 0b11#2 := fun e x => (getLsbD_or_stickyMask e x).2.2

/-- After commands without a reset among them, a sticky bit is set when it was before, or one of them ended in its error. -/
theorem getLsbD_sticky_txnTrace {i : Nat} {code : BitVec 2} (hc : RecordsError i code) (inputs : List TxnInput) :
    ∀ s : TxnState, .reset ∉ inputs →
      ((txnTrace s inputs).getLast?.getD s).sticky.getLsbD i =
        (s.sticky.getLsbD i || (txnTrace s inputs).any fun t => t.err == code) := by
  induction inputs with
  | nil => simp [txnTrace]
  | cons input rest ih =>
    intro s hr
    cases input with
    | reset => simp at hr
    | cmd ctl word value =>
      have hstep : (txnStep s (.cmd ctl word value)).sticky.getLsbD i =
          (s.sticky.getLsbD i || (txnStep s (.cmd ctl word value)).err == code) := hc _ _
      rw [txnTrace, List.getLast?_cons, Option.getD_some, ih _ (List.not_mem_of_not_mem_cons hr), hstep,
        List.any_cons, Bool.or_assoc]

/-- The trace that `observe` reads, at the transaction level. -/
theorem commandTrace_from_reset (cycles : List HostCycle) :
    commandTrace cycles.length { State.reset with host := cycles } =
      txnTrace State.reset.txn (cycles.filterMap HostCycle.txn) :=
  commandTrace_eq_txnTrace cycles _ rfl

theorem observe_responses (cycles : List HostCycle) :
    (observe cycles).responses =
      (txnTrace State.reset.txn (cycles.filterMap HostCycle.txn)).map fun t => (t.result, t.err) := by
  simp only [observe, commandTrace_from_reset]

theorem observe_sticky (cycles : List HostCycle) :
    (observe cycles).sticky =
      ((txnTrace State.reset.txn (cycles.filterMap HostCycle.txn)).getLast?.getD State.reset.txn).sticky := by
  simp only [observe, commandTrace_from_reset]
  cases (txnTrace State.reset.txn (cycles.filterMap HostCycle.txn)).getLast? <;> rfl

/-- A sticky bit at the end of a run without a further reset: the errors of its responses that the bit records. -/
theorem getLsbD_observe_sticky {i : Nat} {code : BitVec 2} (hc : RecordsError i code) {cycles : List HostCycle}
    (hr : ∀ h ∈ cycles, h.rstN = true) :
    (observe cycles).sticky.getLsbD i = (observe cycles).responses.any fun r => r.2 == code := by
  have hno : .reset ∉ cycles.filterMap HostCycle.txn := by
    intro hmem
    obtain ⟨h, hh, htxn⟩ := List.mem_filterMap.1 hmem
    exact HostCycle.txn_ne_reset (hr h hh) htxn
  have hzero : State.reset.txn.sticky.getLsbD i = false := BitVec.getLsbD_zero
  rw [observe_sticky, observe_responses, getLsbD_sticky_txnTrace hc _ _ hno, hzero, Bool.false_or, List.any_map]
  rfl

/-- A run from reset for each value of STICKY: one command per wanted bit (SETU of a value too wide, a width of 65, a
reserved opcode), and an idle cycle in the place of each other. -/
def stickyRun (v : BitVec 3) : List HostCycle :=
  [if v.getLsbD 0 then ⟨true, true, packCtl 0b100 9 23, .bits 0#64, .bits 512#64⟩ else idleCycle,
   if v.getLsbD 1 then ⟨true, true, packCtl 0b010 65 0, .bits 0#64, .bits 0#64⟩ else idleCycle,
   if v.getLsbD 2 then ⟨true, true, packCtl 0b110 0 0, .bits 0#64, .bits 0#64⟩ else idleCycle]

theorem sticky_of_stickyRun :
    ∀ v : BitVec 3, (((stickyRun v).filterMap HostCycle.txn).foldl txnStep State.reset.txn).sticky = v := by
  decide

/-! ### Broken preconditions and the bits of a result (R25, R122) -/

section Shape

variable {f : Nat → Nat → Word → Word → Instr} {w l : Nat} {x v : Word} {s t : State}

theorem exec_fits_violation (hf : f = .fitsu ∨ f = .fitss) (h : 64 < w) :
    exec (f w l x v) s = .next (respond (raise .precondition) s) := by
  have hv := widthViolation_eq_true.2 h
  rcases hf with rfl | rfl
  · simp [exec, execFitsu, fitsuResponse, hv]
  · simp [exec, execFitss, fitssResponse, hv]

theorem exec_field_violation (hf : f = .getu ∨ f = .gets ∨ f = .setu ∨ f = .sets) (h : 64 < w + l) :
    exec (f w l x v) s = .next (respond (raise .precondition) s) := by
  have hv := fieldViolation_eq_true.2 h
  rcases hf with rfl | rfl | rfl | rfl
  · simp [exec, execGetu, getuResponse, hv]
  · simp [exec, execGets, getsResponse, hv]
  · simp [exec, execSetu, setuResponse, hv]
  · simp [exec, execSets, setsResponse, hv]

theorem getLsbD_zext64 (b : Bool) {i : Nat} (hi : 0 < i) : (zext64 b).getLsbD i = false := by
  cases b
  · exact BitVec.getLsbD_zero
  · simp [zext64, hi.ne']

theorem fits_result_high (hf : f = .fitsu ∨ f = .fitss) (h : exec (f w l x v) s = .next t) {i : Nat} (hi : 0 < i) :
    t.result.getLsbD i = false := by
  rcases Nat.lt_or_ge 64 w with hw | hw
  · rw [exec_fits_violation hf hw] at h
    cases h
    exact BitVec.getLsbD_zero
  · rcases hf with rfl | rfl
    · rw [exec_fitsu_legal hw] at h
      cases h
      exact getLsbD_zext64 _ hi
    · rw [exec_fitss_legal hw] at h
      cases h
      exact getLsbD_zext64 _ hi

theorem getu_result_high (h : exec (.getu w l x v) s = .next t) {i : Nat} (hi : w ≤ i) :
    t.result.getLsbD i = false := by
  rcases Nat.lt_or_ge 64 (w + l) with hw | hw
  · rw [exec_field_violation (f := .getu) (.inl rfl) hw] at h
    cases h
    exact BitVec.getLsbD_zero
  · rw [exec_getu_legal hw] at h
    cases h
    exact getField_high (by omega) i hi

theorem gets_result_high (h : exec (.gets w l x v) s = .next t) (h1 : 1 ≤ w) {i : Nat} (hi : w ≤ i) (hi64 : i < 64) :
    t.result.getLsbD i = t.result.getLsbD (w - 1) := by
  rcases Nat.lt_or_ge 64 (w + l) with hw | hw
  · rw [exec_field_violation (f := .gets) (.inr (.inl rfl)) hw] at h
    cases h
    rw [respond_result, raise_result, BitVec.getLsbD_zero, BitVec.getLsbD_zero]
  · rw [exec_gets_legal hw] at h
    cases h
    have hw64 : w ≤ 64 := by omega
    have hbits {j : Nat} (hj : j < 64) : (sext64 (getField w l x) w).getLsbD j =
        if j < w then (getField w l x).getLsbD j else (getField w l x).getLsbD (w - 1) :=
      getLsbD_sext64 h1 hw64 _ (getField_high hw64) hj
    rw [respond_result, hbits hi64, hbits (by omega), if_neg (by omega), if_pos (by omega)]

end Shape

end Sys2Proof.Machine

namespace Sys2Proof.Proofs.State

open Sys2Proof.Machine

/-- Settles O1: the four fields of the reset state. -/
theorem resetStateHoldsTheStatedValues : Obligations.ResetStateHoldsTheStatedValues := ⟨rfl, rfl, rfl, rfl⟩

/-- Settles O36: at reset ERR is OK, so no clause has an error to speak of. -/
theorem resetStateIsCoherent : Obligations.ResetStateIsCoherent := by
  unfold Obligations.ResetStateIsCoherent
  decide

/-- Settles O3: the step of an idle cycle. -/
theorem idleEdgeClearsOnlyRspValid : Obligations.IdleEdgeClearsOnlyRspValid :=
  fun _ _ _ hs hr hv => step_of_idle hs hr hv

/-- Settles O6: the step of an accepting cycle is stated through the decoder and the dispatch. -/
theorem acceptingStepRunsTheDecodedCommand : Obligations.AcceptingStepRunsTheDecodedCommand := by
  rintro s h rest i hs hr hv rfl
  exact step_of_accepting hs hr hv

/-- Settles O39: one response serves every state. -/
theorem responsesDoNotDependOnTheState : Obligations.ResponsesDoNotDependOnTheState := by
  intro i s1 s2 t1 t2 h1 h2
  obtain ⟨r, hr⟩ := exec_eq_respond i
  rw [hr] at h1 h2
  cases h1
  cases h2
  exact ⟨rfl, rfl⟩

/-- Settles O5: the next state is `respond` of R66's function, and each sticky bit records its own error. -/
theorem acceptedCommandWritesTheFourRegisters : Obligations.AcceptedCommandWritesTheFourRegisters := by
  rintro s h rest r e hs hr hv rfl rfl
  exact ⟨_, step_of_accepting_eq_respond hs hr hv, rfl, rfl, recordsError_ovfS _ _, recordsError_preS _ _,
    recordsError_illS _ _, rfl, rfl⟩

/-- Settles O8: by the three kinds of edge, of which only a command sets RSP_VALID. -/
theorem rspValidIsOneExactlyAfterAnAcceptedCommand : Obligations.RspValidIsOneExactlyAfterAnAcceptedCommand := by
  intro s t hstep
  refine ⟨?_, ?_, ?_⟩
  · rw [rspValid_eq_one_iff hstep]
    simp only [nextInput_cmd_iff]
    exact ⟨fun ⟨_, h, rest, hs, hr, hv, _⟩ => ⟨h, rest, hs, hr, hv⟩,
      fun ⟨h, rest, hs, hr, hv⟩ => ⟨_, h, rest, hs, hr, hv, rfl⟩⟩
  · intro h rest hs hrv
    obtain ⟨c, hc⟩ := (rspValid_eq_one_iff hstep).1 hrv
    obtain ⟨h', rest', hs', hr, hv, -⟩ := nextInput_cmd_iff.1 hc
    obtain ⟨rfl, rfl⟩ := List.cons.inj (hs.symm.trans hs')
    rw [step_of_accepting_eq_respond hs hr hv] at hstep
    cases hstep
    exact ⟨rfl, rfl⟩
  · intro hrv
    obtain ⟨hi, rfl⟩ | ⟨-, rfl⟩ | ⟨c, -, rfl⟩ := step_next_cases hstep
    · exact .inr ⟨nextInput_reset_iff.1 hi, rfl, rfl⟩
    · exact .inl ⟨rfl, rfl⟩
    · exact absurd rfl hrv

/-- Settles O9: each error sets its own bit, only a reset edge clears one, and `stickyRun` reaches each value. -/
theorem stickyBitsAccumulateUntilReset : Obligations.StickyBitsAccumulateUntilReset := by
  refine ⟨?_, ?_, ?_⟩
  · intro i s t h
    obtain ⟨r, hr⟩ := exec_eq_respond i
    rw [hr] at h
    cases h
    exact getLsbD_or_stickyMask r.err s.sticky
  · intro s t k hstep hno hk
    refine step_keeps_sticky_bit hstep (fun hi => ?_) hk
    obtain ⟨h, rest, hs, hr⟩ := nextInput_reset_iff.1 hi
    exact Bool.false_ne_true (hr.symm.trans (hno h rest hs))
  · intro v
    obtain ⟨t, hrun, ht⟩ := run_txn (stickyRun v) { State.reset with host := stickyRun v } rfl
    exact ⟨stickyRun v, t, hrun, (congrArg TxnState.sticky ht).trans (sticky_of_stickyRun v)⟩

/-- Settles O29: from the answer of each operation, an error's RESULT being 0. -/
theorem resultHasTheShapeOfItsOperation : Obligations.ResultHasTheShapeOfItsOperation := by
  intro width lsb word value s t
  refine ⟨?_, fun h _ hi => getu_result_high h hi, fun h h1 _ hi hi64 => gets_result_high h h1 hi hi64⟩
  rintro (h | h) i hi
  · exact fits_result_high (.inl rfl) h hi
  · exact fits_result_high (.inr rfl) h hi

/-- Settles O48: the commuting square of one edge. -/
theorem everyEdgeIsItsTransactionOrNone : Obligations.EveryEdgeIsItsTransactionOrNone := by
  intro s t hstep
  refine ⟨fun hs => ?_, fun h rest hs => ?_⟩
  · rw [step_of_silent hs] at hstep
    cases hstep
    rfl
  · obtain ⟨u, hu, -, hcases⟩ := step_txn_cases hs
    obtain rfl : u = t := Host.Outcome.next.inj (hu.symm.trans hstep)
    obtain ⟨htxn, -, ht⟩ | ⟨htxn, -, ht⟩ | ⟨ctl, word, value, htxn, -, ht⟩ := hcases <;> simp [htxn, ht]

/-- Settles O44: the commuting square along the host's cycles. -/
theorem cycleAndTransactionLevelsAgree : Obligations.CycleAndTransactionLevelsAgree :=
  fun s => commandTrace_eq_txnTrace s.host s rfl

/-- Settles O46: each sticky bit of the transaction-level run records its own error. -/
theorem stickyAtTheEndIsTheErrorsOfTheRun : Obligations.StickyAtTheEndIsTheErrorsOfTheRun :=
  fun _ hr => ⟨getLsbD_observe_sticky recordsError_ovfS hr, getLsbD_observe_sticky recordsError_preS hr,
    getLsbD_observe_sticky recordsError_illS hr⟩

end Sys2Proof.Proofs.State
end

/-! PROOFS. What a sequence of commands answers (20_memory.md): a command repeated, and a run as its cycles each run
alone. -/

namespace Sys2Proof.Machine

/-- Answering twice is answering once: three registers are overwritten and STICKY takes in the same bit again (R48). -/
theorem respond_respond (r : Response) (s : State) : respond r (respond r s) = respond r s := by
  simp [respond, BitVec.or_assoc]

/-! ### Commands whose buses are not driven with `RES` (R50) -/

/-- A bus shows `rsp_result` only where the host drives it with `RES`. -/
theorem BusDrive.sample_eq_sample {d : BusDrive} (hd : d ≠ .rspResult) (r r' : Word) : d.sample r = d.sample r' := by
  cases d with
  | bits v => rfl
  | rspResult => exact absurd rfl hd

/-- Such a command gives the same RESULT and ERR from every tuple. -/
theorem txnStep_cmd_response {word value : BusDrive} (hw : word ≠ .rspResult) (hv : value ≠ .rspResult) (ctl : Ctl)
    (s s' : TxnState) :
    (txnStep s (.cmd ctl word value)).result = (txnStep s' (.cmd ctl word value)).result ∧
    (txnStep s (.cmd ctl word value)).err = (txnStep s' (.cmd ctl word value)).err := by
  simp [txnStep, BusDrive.sample_eq_sample hw s.result s'.result, BusDrive.sample_eq_sample hv s.result s'.result]

/-- From whatever tuple a run starts, its responses are those of its cycles each run alone from reset. -/
theorem responses_txnTrace_eq_flatMap (cycles : List HostCycle)
    (hfree : ∀ h ∈ cycles, h.cmdWord ≠ .rspResult ∧ h.cmdValue ≠ .rspResult) :
    ∀ s : TxnState, ((txnTrace s (cycles.filterMap HostCycle.txn)).map fun t => (t.result, t.err)) =
      cycles.flatMap fun h => (observe [h]).responses := by
  induction cycles with
  | nil => exact fun _ => rfl
  | cons h rest ih =>
    intro s
    obtain ⟨⟨hw, hv⟩, hrest⟩ := List.forall_mem_cons.1 hfree
    obtain hr | ⟨hr, hc⟩ | ⟨hr, hc⟩ := h.reset_or_idle_or_accepting
    · simp [observe_responses, HostCycle.txn_of_reset hr, txnTrace, ih hrest]
    · simp [observe_responses, HostCycle.txn_of_idle hr hc, txnTrace, ih hrest]
    · simp [observe_responses, HostCycle.txn_of_accepting hr hc, txnTrace, ih hrest,
        txnStep_cmd_response hw hv h.cmdCtl s State.reset.txn]

end Sys2Proof.Machine

namespace Sys2Proof.Proofs.Memory

open Sys2Proof.Machine

/-- Settles O40: one response serves both states, and answering it again changes nothing. -/
theorem repeatedCommandChangesNothingMore : Obligations.RepeatedCommandChangesNothingMore := by
  intro i s t h
  obtain ⟨r, hr⟩ := exec_eq_respond i
  obtain rfl : respond r s = t := Host.Outcome.next.inj ((hr s).symm.trans h)
  rw [hr, respond_respond]

/-- Settles O45: the transaction-level run of `observe`, started at the reset tuple. -/
theorem responsesComeInOrderEachAsIfAlone : Obligations.ResponsesComeInOrderEachAsIfAlone :=
  fun cycles hfree => (observe_responses cycles).trans (responses_txnTrace_eq_flatMap cycles hfree State.reset.txn)

end Sys2Proof.Proofs.Memory

/-! PROOFS. The encoding of a command (30_encoding.md): decoder and encoder as inverses of each other, the operands an
operation ignores, and the cycle a command line drives. -/

namespace Sys2Proof

/-! ### The fields of the control word (R60, R69) -/

/-- The opcode's three bits, as the decoder reads them. -/
theorem ctl_mod_eight (ctl : Ctl) :
    ctl.toNat % 8 = (ctl.getLsbD 2).toNat * 4 + (ctl.getLsbD 1).toNat * 2 + (ctl.getLsbD 0).toNat := by
  simp only [BitVec.getLsbD, Nat.toNat_testBit]
  omega

/-- The three fields are the whole control word. -/
theorem packCtl_fields (ctl : Ctl) : packCtl (ctl.toNat % 8) (ctlWidth ctl) (ctlLsb ctl) = ctl := by
  apply BitVec.eq_of_toNat_eq
  rw [toNat_packCtl (by omega) (ctlWidth_lt ctl) (ctlLsb_lt ctl), ctlWidth_eq, ctlLsb_eq]
  omega

/-- R69's control word, written with sums in the place of `|`. -/
theorem packCtl_eq_ofNat {op w l : Nat} (ho : op < 8) (hw : w < 128) (hl : l < 128) :
    packCtl op w l = BitVec.ofNat 17 (l * 2 ^ 10 + w * 2 ^ 3 + op) := by
  apply BitVec.eq_of_toNat_eq
  rw [toNat_packCtl ho hw hl, BitVec.toNat_ofNat]
  omega

/-! ### Decoder and encoder (R62 to R64) -/

theorem Instr.opcode_lt (i : Instr) : i.opcode < 8 := by
  cases i <;> simp [Instr.opcode]

theorem encode_ctl (i : Instr) : (encode i).ctl = packCtl i.opcode i.width i.lsb := by
  cases i <;> rfl

theorem opcode_decode (c : Command) : (decode c).opcode = c.ctl.toNat % 8 := by
  rw [ctl_mod_eight]
  unfold decode
  split <;> next h2 h1 h0 => rw [h2, h1, h0]; rfl

theorem encode_decode_operands (c : Command) :
    (encode (decode c)).word = c.word ∧ (encode (decode c)).value = c.value := by
  unfold decode
  split <;> exact ⟨rfl, rfl⟩

/-- The decoder drops no bit of the buses. -/
theorem encode_decode (c : Command) : encode (decode c) = c := by
  have hctl : (encode (decode c)).ctl = c.ctl := by
    rw [encode_ctl, opcode_decode, width_decode, lsb_decode, packCtl_fields]
  obtain ⟨hword, hvalue⟩ := encode_decode_operands c
  calc encode (decode c) = ⟨(encode (decode c)).ctl, (encode (decode c)).word, (encode (decode c)).value⟩ := rfl
    _ = c := by rw [hctl, hword, hvalue]

/-- A control word that can carry the command's numbers gives its row, width and position back. -/
theorem decode_encode {i : Instr} (h : i.WellFormed) : decode (encode i) = i := by
  obtain ⟨hw, hl⟩ := h
  have hbit {k : Nat} (hk : k < 3) : (encode i).ctl.getLsbD k = i.opcode.testBit k := by
    rw [encode_ctl, getLsbD_packCtl i.opcode_lt hw hl hk]
  have hwidth : ctlWidth (encode i).ctl = i.width := by
    rw [encode_ctl, ctlWidth_packCtl i.opcode_lt hw hl]
  have hlsb : ctlLsb (encode i).ctl = i.lsb := by
    rw [encode_ctl, ctlLsb_packCtl i.opcode_lt hw hl]
  rw [decode, hbit (by decide), hbit (by decide), hbit (by decide), hwidth, hlsb]
  cases i <;> simp only [Instr.opcode] <;> rfl

end Sys2Proof

namespace Sys2Proof.Machine

/-! ### The operands of the SET family (R65) -/

section Set

variable {f : Nat → Nat → Word → Word → Instr} {w l w' l' : Nat} {x v x' v' : Word} {s : State}

/-- A value that fits a legal field in both readings is written alike by SETU and SETS. -/
theorem exec_set_of_fits (hf : f = .setu ∨ f = .sets)
    (h : w + l ≤ 64 ∧ fitsUnsigned w v = true ∧ fitsSigned w v = true) :
    exec (f w l x v) s = .next (respond ⟨setField w l x v, .ok⟩ s) := by
  obtain ⟨hfield, hu, hs⟩ := h
  have hw : w ≤ 64 := by omega
  rcases hf with rfl | rfl
  · rw [exec_setu_legal hfield, if_pos hu]
  · rw [exec_sets_legal hfield, if_pos hs, and_mask_of_high hw v ((fitsUnsigned_iff_bits hw v).1 hu)]

/-- Two such commands that leave different words answer differently. -/
theorem exec_set_ne (hf : f = .setu ∨ f = .sets)
    (h : w + l ≤ 64 ∧ fitsUnsigned w v = true ∧ fitsSigned w v = true)
    (h' : w' + l' ≤ 64 ∧ fitsUnsigned w' v' = true ∧ fitsSigned w' v' = true)
    (hne : setField w l x v ≠ setField w' l' x' v') :
    exec (f w l x v) s ≠ exec (f w' l' x' v') s := by
  rw [exec_set_of_fits hf h, exec_set_of_fits hf h']
  intro heq
  exact hne (congrArg State.result (Host.Outcome.next.inj heq))

end Set

/-! ### What a line drives (R67, R69) -/

theorem BusToken.drive_of_res_or_int {X : BusToken} {x : BusDrive}
    (h : (X = .res ∧ x = .rspResult) ∨
      ∃ n : Int, X = .int n ∧ -(2 : Int) ^ 63 ≤ n ∧ n < (2 : Int) ^ 64 ∧ x = .bits (BitVec.ofInt 64 n)) :
    X.drive = some x := by
  obtain ⟨rfl, rfl⟩ | ⟨n, rfl, hlo, hhi, rfl⟩ := h
  · rfl
  · exact if_pos ⟨hlo, hhi⟩

theorem commandCycle_eq {op w l : Nat} {X V : BusToken} {x v : BusDrive} (hX : X.drive = some x)
    (hV : V.drive = some v) (hw : w ≤ 127) (hl : l ≤ 127) :
    commandCycle op w l X V = some ⟨true, true, packCtl op w l, x, v⟩ := by
  rw [commandCycle, hX, hV]
  exact if_pos ⟨hw, hl⟩

end Sys2Proof.Machine

namespace Sys2Proof.Proofs.Encoding

open Sys2Proof.Machine

/-- Settles O32: the decoder reads the opcode's bits, the width and the position back from the packed control word. -/
theorem decodeOfEncodeIsTheCommand : Obligations.DecodeOfEncodeIsTheCommand := fun _ h => decode_encode h

/-- Settles O33: the decoder's fields are those of the control word, and the three fields are all of it. -/
theorem encodeOfDecodeIsTheBuses : Obligations.EncodeOfDecodeIsTheBuses := by
  intro c
  refine ⟨decode_wellFormed c, ?_, ?_, opcode_decode c, encode_decode c⟩
  · rw [width_decode]
    exact ctlWidth_eq c.ctl
  · have hctl := c.ctl.isLt
    rw [lsb_decode, ctlLsb_eq]
    omega

/-- Settles O22: the meanings of FITS and GET do not take the operands they ignore, and for each operand of SETU and SETS
two of its values, which both operations accept, leave different words. -/
theorem unusedOperandsAreIgnored : Obligations.UnusedOperandsAreIgnored := by
  refine ⟨fun _ _ _ _ _ _ _ => ⟨rfl, rfl⟩, ?_, fun _ _ _ _ _ _ => ⟨rfl, rfl⟩, ?_⟩
  · intro width lsb word value s h
    exact ⟨⟨_, exec_fitsu_legal h, rfl⟩, ⟨_, exec_fitss_legal h, rfl⟩⟩
  · intro f s hf
    refine ⟨⟨1, 2, 0, 3#64, 0#64, ?width⟩, ⟨1, 0, 1, 3#64, 0#64, ?lsb⟩, ⟨0, 0, 0#64, 1#64, 0#64, ?word⟩,
      ⟨2, 0, 0#64, 0#64, 1#64, ?value⟩⟩
    all_goals exact exec_set_ne hf (by decide) (by decide) (by decide)

/-- Settles O35: each of the eight lines drives `commandCycle` of its opcode, and the packed control word is the sum of its
shifted fields. -/
theorem commandLinesDriveTheirControlWord : Obligations.CommandLinesDriveTheirControlWord := by
  refine ⟨?_, by decide⟩
  intro mk op W L X V x v hmk hW hL hX hV
  have hrow : op < 8 ∧ (mk W L X V).cycle = commandCycle op W L X V := by
    obtain ⟨rfl, rfl⟩ | ⟨rfl, rfl⟩ | ⟨rfl, rfl⟩ | ⟨rfl, rfl⟩ | ⟨rfl, rfl, rfl⟩ | ⟨rfl, rfl, rfl⟩ |
      ⟨rfl, rfl, rfl, rfl⟩ | ⟨rfl, rfl, rfl, rfl⟩ := hmk
    all_goals exact ⟨by decide, rfl⟩
  obtain ⟨hop, hcycle⟩ := hrow
  rw [hcycle, commandCycle_eq (BusToken.drive_of_res_or_int hX) (BusToken.drive_of_res_or_int hV) hW hL,
    packCtl_eq_ofNat hop (by omega) (by omega)]

/-- Settles O34: eight fixed words, decoded by evaluation. -/
theorem writtenOutControlWordsDecode : Obligations.WrittenOutControlWordsDecode := by
  unfold Obligations.WrittenOutControlWordsDecode
  decide

end Sys2Proof.Proofs.Encoding

/-! PROOFS. The fits predicates (40_fits.md): what FITSU and FITSS answer at every width, how the answer grows with the
width, and that it decides OVERFLOW of the set family. -/

namespace Sys2Proof

/-- A bus value decodes to the command whose opcode, width, position and operands it carries (R62, R63). -/
theorem decode_eq_of_fields {c : Command} {i : Instr} (hop : c.ctl.toNat % 8 = i.opcode)
    (hw : i.width = c.ctl.toNat / 8 % 128) (hl : i.lsb = c.ctl.toNat / 1024)
    (hword : (encode i).word = c.word) (hvalue : (encode i).value = c.value) : decode c = i := by
  rw [← ctlWidth_eq] at hw
  rw [← ctlLsb_eq] at hl
  have hwf : i.WellFormed := ⟨hw ▸ ctlWidth_lt c.ctl, hl ▸ ctlLsb_lt c.ctl⟩
  have hctl : (encode i).ctl = c.ctl := by rw [encode_ctl, ← hop, hw, hl, packCtl_fields]
  calc decode c = decode ⟨(encode i).ctl, (encode i).word, (encode i).value⟩ := by rw [hctl, hword, hvalue]
    _ = i := decode_encode hwf

end Sys2Proof

namespace Sys2Proof.Machine

/-! ### A successful response (R29) and the truth value it may carry (R10) -/

/-- A command without an error leaves STICKY as it was. -/
theorem respond_ok (x : Word) (s : State) :
    respond ⟨x, .ok⟩ s = { s with result := x, err := 0b00#2, rspValid := 1#1 } := by
  simp [respond, ErrCode.code, ErrCode.stickyMask]

theorem zext64_eq_ite {b : Bool} {p : Prop} [Decidable p] (h : b = true ↔ p) :
    zext64 b = if p then 1#64 else 0#64 := by
  simp [zext64, h]

theorem zext64_eq_zero_iff (b : Bool) : zext64 b = 0#64 ↔ b = false := by
  cases b <;> simp [zext64]

/-! ### The signed range and the next width (R81, R83) -/

/-- R81's three ways for a value to fit. -/
theorem fitsSigned_iff_range (w : Nat) (v : Word) :
    fitsSigned w v = true ↔ w = 64 ∨ (w = 0 ∧ v.toInt = 0) ∨
      (0 < w ∧ -(2 : Int) ^ (w - 1) ≤ v.toInt ∧ v.toInt < (2 : Int) ^ (w - 1)) := by
  rw [fitsSigned, sint_eq_toInt]
  by_cases h64 : w = 64
  · simp [h64]
  rcases Nat.eq_zero_or_pos w with rfl | h0
  · simp
  · simp [h64, h0, h0.ne']

section NextWidth

variable {w : Nat} {v : Word}

theorem fitsUnsigned_succ (h : w < 64) (hf : fitsUnsigned w v = true) : fitsUnsigned (w + 1) v = true := by
  rw [fitsUnsigned_iff_bits h.le] at hf
  rw [fitsUnsigned_iff_bits h]
  exact fun i hi => hf i (by omega)

/-- The signed range doubles from one width to the next; width 0 has 0 alone. -/
theorem fitsSigned_succ (h : w < 64) (hf : fitsSigned w v = true) : fitsSigned (w + 1) v = true := by
  rw [fitsSigned_iff (w := w + 1) (by omega) h, Nat.add_sub_cancel]
  rcases Nat.eq_zero_or_pos w with rfl | h0
  · rw [fitsSigned_zero] at hf
    subst hf
    decide
  · rw [fitsSigned_iff h0 h.le] at hf
    have hdouble := two_pow_eq_two_mul h0
    omega

/-- An unsigned value below 2^w is its own signed reading, and the next width's signed range ends at 2^w. -/
theorem fitsSigned_succ_of_fitsUnsigned (h : w < 64) (hf : fitsUnsigned w v = true) :
    fitsSigned (w + 1) v = true := by
  have hlt : v.toNat < 2 ^ w := ((fitsUnsigned_iff v).1 hf).resolve_left h.ne
  have hpow : 2 ^ w ≤ 2 ^ 63 := Nat.pow_le_pow_right (by decide) (by omega)
  have hread : v.toInt = v.toNat := BitVec.toInt_eq_toNat_of_lt (by omega)
  have hcast : ((2 ^ w : Nat) : Int) = (2 : Int) ^ w := Nat.cast_pow 2 w
  rw [fitsSigned_iff (w := w + 1) (by omega) h, Nat.add_sub_cancel, hread]
  omega

end NextWidth

/-! ### What a legal command answers, read off its next state (R80 to R82) -/

section Answer

variable {w l : Nat} {x v : Word} {s t : State}

theorem fitsu_result (h : w ≤ 64) (ht : exec (.fitsu w l x v) s = .next t) :
    t.result = zext64 (fitsUnsigned w v) := by
  rw [exec_fitsu_legal h] at ht
  cases ht
  rfl

theorem fitss_result (h : w ≤ 64) (ht : exec (.fitss w l x v) s = .next t) :
    t.result = zext64 (fitsSigned w v) := by
  rw [exec_fitss_legal h] at ht
  cases ht
  rfl

/-- Of a response that depends on a fits predicate, OVERFLOW is the one for a misfit. -/
theorem respond_err_eq_overflow_iff (fits : Bool) (r : Word) (s : State) :
    (respond (if fits = true then ⟨r, .ok⟩ else raise .overflow) s).err = 0b01#2 ↔ fits = false := by
  cases fits <;> simp [ErrCode.code]

theorem setu_err_eq_overflow_iff (h : w + l ≤ 64) (ht : exec (.setu w l x v) s = .next t) :
    t.err = 0b01#2 ↔ fitsUnsigned w v = false := by
  rw [exec_setu_legal h] at ht
  cases ht
  exact respond_err_eq_overflow_iff _ _ s

theorem sets_err_eq_overflow_iff (h : w + l ≤ 64) (ht : exec (.sets w l x v) s = .next t) :
    t.err = 0b01#2 ↔ fitsSigned w v = false := by
  rw [exec_sets_legal h] at ht
  cases ht
  exact respond_err_eq_overflow_iff _ _ s

end Answer

end Sys2Proof.Machine

namespace Sys2Proof.Proofs.Fits

open Sys2Proof.Machine

/-- Settles O16: the answer up to width 64 is the truth value of R80's expression, and above it the response is
PRECONDITION's. -/
theorem fitsuTellsWhetherTheUnsignedValueFits : Obligations.FitsuTellsWhetherTheUnsignedValueFits := by
  refine ⟨fun c hop => decode_eq_of_fields hop rfl rfl rfl rfl,
    fun width lsb word value s => ⟨fun h => ?_, fun h => ?_⟩⟩
  · rw [exec_fitsu_legal h, respond_ok, zext64_eq_ite (fitsUnsigned_iff value)]
  · exact exec_fits_violation (f := .fitsu) (.inl rfl) h

/-- Settles O17: the answer up to width 64 is the truth value of R81's expression, and above it the response is
PRECONDITION's. -/
theorem fitssTellsWhetherTheSignedValueFits : Obligations.FitssTellsWhetherTheSignedValueFits := by
  refine ⟨fun c hop => decode_eq_of_fields hop rfl rfl rfl rfl,
    fun width lsb word value s => ⟨fun h => ?_, fun h => ?_⟩⟩
  · rw [exec_fitss_legal h, respond_ok, zext64_eq_ite (fitsSigned_iff_range width value)]
  · exact exec_fits_violation (f := .fitss) (.inr rfl) h

/-- Settles O24: an answer 1 is the fits predicate, which each widening law carries to the next width. In the third law
`v < 2^63` follows from the fit at a width below 64. -/
theorem fitsIsMonotoneInTheWidth : Obligations.FitsIsMonotoneInTheWidth := by
  intro w l x v s t u hw
  refine ⟨fun ht hu => ?_, fun ht hu => ?_, fun _ ht hu => ?_⟩
  · rw [fitsu_result hw.le ht, fitsu_result hw hu, zext64_eq_one_iff, zext64_eq_one_iff]
    exact fitsUnsigned_succ hw
  · rw [fitss_result hw.le ht, fitss_result hw hu, zext64_eq_one_iff, zext64_eq_one_iff]
    exact fitsSigned_succ hw
  · rw [fitsu_result hw.le ht, fitss_result hw hu, zext64_eq_one_iff, zext64_eq_one_iff]
    exact fitsSigned_succ_of_fitsUnsigned hw

/-- Settles O23: OVERFLOW and the answer 0 are each the failure of the same fits predicate. -/
theorem fitsDecidesOverflow : Obligations.FitsDecidesOverflow := by
  intro width lsb lsb' word word' value s s' t u h
  have hw : width ≤ 64 := by omega
  refine ⟨fun ht hu => ?_, fun ht hu => ?_⟩
  · rw [setu_err_eq_overflow_iff h ht, fitsu_result hw hu, zext64_eq_zero_iff]
  · rw [sets_err_eq_overflow_iff h ht, fitss_result hw hu, zext64_eq_zero_iff]

end Sys2Proof.Proofs.Fits

/-! PROOFS. Extraction (41_get.md): GETU answers the field as an unsigned number, GETS the same bits read as two's
complement, and GETS is the sign extension of GETU. -/

namespace Sys2Proof.Machine

section Get

variable {w l : Nat} {x v : Word} {s t : State}

theorem getu_result (h : w + l ≤ 64) (ht : exec (.getu w l x v) s = .next t) : t.result = getField w l x := by
  rw [exec_getu_legal h] at ht
  cases ht
  rfl

theorem gets_result (h : w + l ≤ 64) (ht : exec (.gets w l x v) s = .next t) :
    t.result = sext64 (getField w l x) w := by
  rw [exec_gets_legal h] at ht
  cases ht
  rfl

theorem fitsUnsigned_getField (h : w ≤ 64) : fitsUnsigned w (getField w l x) = true :=
  (fitsUnsigned_iff_bits h _).2 (getField_high h)

/-- A value whose top bit at width `w` is 0 is its own sign extension. -/
theorem sext64_of_top_bit_false {f : Word} (h0 : 0 < w) (hb : f.getLsbD (w - 1) = false) : sext64 f w = f := by
  simp [sext64, h0.ne', hb]

/-- GETS's answer as a number: the field's upper half stands for the negative numbers (R91). -/
theorem toInt_sext64_getField (h0 : 0 < w) (h : w ≤ 64) :
    (sext64 (getField w l x) w).toInt =
      if 2 ^ (w - 1) ≤ x.toNat / 2 ^ l % 2 ^ w then ((x.toNat / 2 ^ l % 2 ^ w : Nat) : Int) - (2 : Int) ^ w
      else ((x.toNat / 2 ^ l % 2 ^ w : Nat) : Int) := by
  have hdouble : 2 ^ w = 2 * 2 ^ (w - 1) := (mul_pow_sub_one h0.ne' 2).symm
  have hbits : ((getField w l x).setWidth w).toNat = x.toNat / 2 ^ l % 2 ^ w := by
    rw [BitVec.toNat_setWidth, toNat_getField h, Nat.mod_mod]
  have hreading := BitVec.toInt_eq_toNat_cond ((getField w l x).setWidth w)
  rw [hbits] at hreading
  rw [← and_mask_of_high h _ (getField_high h), ← signExtend_setWidth_eq_sext64 h0 h,
    BitVec.toInt_signExtend_of_le h, hreading, Nat.cast_pow, Nat.cast_ofNat]
  by_cases hhalf : 2 ^ (w - 1) ≤ x.toNat / 2 ^ l % 2 ^ w
  · rw [if_neg (by omega), if_pos hhalf]
  · rw [if_pos (by omega), if_neg hhalf]

end Get

end Sys2Proof.Machine

namespace Sys2Proof.Proofs.Get

open Sys2Proof.Machine

/-- Settles O18: the field of a word is its number R90 states, and a field that leaves the word is PRECONDITION's. -/
theorem getuExtractsTheUnsignedField : Obligations.GetuExtractsTheUnsignedField := by
  refine ⟨fun c hop => decode_eq_of_fields hop rfl rfl rfl rfl,
    fun width lsb word value s => ⟨fun h => ?_, fun h => ?_⟩⟩
  · have hw : width ≤ 64 := by omega
    rw [exec_getu_legal h, respond_ok, ← toNat_getField hw, BitVec.ofNat_toNat, BitVec.setWidth_eq]
  · exact exec_field_violation (f := .getu) (.inl rfl) (by omega)

/-- Settles O19: the sign-extended field is the bus value of its two's-complement reading; at width 0 both are 0. -/
theorem getsExtractsTheSignedField : Obligations.GetsExtractsTheSignedField := by
  refine ⟨fun c hop => decode_eq_of_fields hop rfl rfl rfl rfl,
    fun width lsb word value s => ⟨fun h => ?_, fun h => ?_⟩⟩
  · rw [exec_gets_legal h, respond_ok]
    rcases Nat.eq_zero_or_pos width with rfl | h0
    · rfl
    · rw [if_neg h0.ne', ← toInt_sext64_getField h0 (by omega), BitVec.ofInt_toInt]
  · exact exec_field_violation (f := .gets) (.inr (.inl rfl)) (by omega)

/-- Settles O25: the GETS answer is the sign extension of the field that GETU answers; the field fits unsigned, and its
sign extension fits signed. -/
theorem getsIsTheSignExtensionOfGetu : Obligations.GetsIsTheSignExtensionOfGetu := by
  intro width lsb word value value' s t u h ht hu
  have hw : width ≤ 64 := by omega
  have hunsigned : fitsUnsigned width (getField width lsb word) = true := fitsUnsigned_getField hw
  have hsigned : fitsSigned width (sext64 (getField width lsb word) width) = true :=
    fitsSigned_sext64 hw _ (getField_high hw)
  rw [getu_result h ht, gets_result h hu]
  refine ⟨rfl, fun hlt => ?_, fun h1 => (fitsSigned_iff h1 hw _).1 hsigned, sext64_of_top_bit_false,
    ⟨_, exec_fitsu_legal hw, (zext64_eq_one_iff _).2 hunsigned⟩,
    ⟨_, exec_fitss_legal hw, (zext64_eq_one_iff _).2 hsigned⟩⟩
  exact ((fitsUnsigned_iff _).1 hunsigned).resolve_left hlt.ne

end Sys2Proof.Proofs.Get

/-! PROOFS. Replacement (42_set.md): the word a successful SETU or SETS leaves, bit by bit, and with it the round trip of
SET and GET and the laws of two SETs. -/

namespace Sys2Proof.Machine

/-! ### The word a SET leaves (R100, R101) -/

section Field

variable {w l w' l' : Nat} {x v v' : Word}

/-- The bits of a value outside the field do not matter: its low `w` bits are placed, the word's other bits stay. -/
theorem getLsbD_setField_and_mask (h : w + l ≤ 64) {i : Nat} (hi : i < 64) :
    (setField w l x (v &&& mask w)).getLsbD i =
      if l ≤ i ∧ i < l + w then v.getLsbD (i - l) else x.getLsbD i := by
  have hw : w ≤ 64 := by omega
  rw [getLsbD_setField h x _ (and_mask_high hw v) hi, getLsbD_and_mask hw]
  by_cases hin : l ≤ i ∧ i < l + w
  · have hlow : i - l < w := by omega
    simp [hin, hlow]
  · simp [hin]

theorem setField_setField_same (h : w + l ≤ 64) :
    setField w l (setField w l x (v &&& mask w)) (v' &&& mask w) = setField w l x (v' &&& mask w) := by
  apply BitVec.eq_of_getLsbD_eq
  intro i hi
  rw [getLsbD_setField_and_mask h hi, getLsbD_setField_and_mask h hi, getLsbD_setField_and_mask h hi]
  by_cases hin : l ≤ i ∧ i < l + w
  · rw [if_pos hin, if_pos hin]
  · rw [if_neg hin, if_neg hin, if_neg hin]

/-- A bit of the word lies in at most one of two disjoint fields. -/
theorem setField_comm (h : w + l ≤ 64) (h' : w' + l' ≤ 64) (hd : l + w ≤ l' ∨ l' + w' ≤ l) :
    setField w' l' (setField w l x (v &&& mask w)) (v' &&& mask w') =
      setField w l (setField w' l' x (v' &&& mask w')) (v &&& mask w) := by
  apply BitVec.eq_of_getLsbD_eq
  intro i hi
  rw [getLsbD_setField_and_mask h' hi, getLsbD_setField_and_mask h hi, getLsbD_setField_and_mask h hi,
    getLsbD_setField_and_mask h' hi]
  by_cases hin : l ≤ i ∧ i < l + w
  · rw [if_pos hin, if_neg (by omega), if_pos hin]
  · rw [if_neg hin, if_neg hin]

theorem getField_setField_disjoint (h : w + l ≤ 64) (h' : w' + l' ≤ 64) (hd : l + w ≤ l' ∨ l' + w' ≤ l) :
    getField w' l' (setField w l x (v &&& mask w)) = getField w' l' x := by
  have hw' : w' ≤ 64 := by omega
  apply BitVec.eq_of_getLsbD_eq
  intro i _
  rw [getLsbD_getField hw', getLsbD_getField hw']
  by_cases hin : i < w'
  · rw [getLsbD_setField_and_mask h (by omega), if_neg (by omega)]
  · simp [hin]

theorem setField_getField (h : w + l ≤ 64) : setField w l x (getField w l x) = x := by
  have hw : w ≤ 64 := by omega
  apply BitVec.eq_of_getLsbD_eq
  intro i hi
  rw [getLsbD_setField h x _ (getField_high hw) hi, getLsbD_getField hw]
  by_cases hin : l ≤ i ∧ i < l + w
  · have hlow : i - l < w := by omega
    simp [hin, hlow]
  · rw [if_neg hin]

/-- Sign extension adds no bit inside the field. -/
theorem sext64_getField_and_mask (h : w ≤ 64) : sext64 (getField w l x) w &&& mask w = getField w l x := by
  apply BitVec.eq_of_getLsbD_eq
  intro i hi
  rw [getLsbD_and_mask h]
  by_cases hin : i < w
  · rw [getLsbD_sext64 (by omega) h _ (getField_high h) hi, if_pos hin]
    simp [hin]
  · simp [hin, getField_high h i (by omega)]

end Field

/-! ### When a SET succeeds, and what it answers then -/

section Set

variable {f g : Nat → Nat → Word → Word → Instr} {w l : Nat} {x v : Word} {s t : State}

/-- A value that fits unsigned is its own low bits, so SETU's answer has the form of SETS's. -/
theorem exec_setu_fits (h : w + l ≤ 64) (hv : fitsUnsigned w v = true) :
    exec (.setu w l x v) s = .next (respond ⟨setField w l x (v &&& mask w), .ok⟩ s) := by
  have hw : w ≤ 64 := by omega
  rw [exec_setu_legal h, if_pos hv, and_mask_of_high hw v ((fitsUnsigned_iff_bits hw v).1 hv)]

theorem exec_sets_fits (h : w + l ≤ 64) (hv : fitsSigned w v = true) :
    exec (.sets w l x v) s = .next (respond ⟨setField w l x (v &&& mask w), .ok⟩ s) := by
  rw [exec_sets_legal h, if_pos hv]

theorem exec_setu_misfit (h : w + l ≤ 64) (hv : ¬ fitsUnsigned w v = true) :
    exec (.setu w l x v) s = .next (respond (raise .overflow) s) := by
  rw [exec_setu_legal h, if_neg hv]

theorem exec_sets_misfit (h : w + l ≤ 64) (hv : ¬ fitsSigned w v = true) :
    exec (.sets w l x v) s = .next (respond (raise .overflow) s) := by
  rw [exec_sets_legal h, if_neg hv]

theorem legal_of_set_ok (hf : f = .setu ∨ f = .sets) (ht : exec (f w l x v) s = .next t) (hok : t.err = 0b00#2) :
    w + l ≤ 64 := by
  by_contra h
  rw [exec_field_violation (.inr (.inr hf)) (by omega)] at ht
  cases ht
  simp [ErrCode.code] at hok

theorem fitsUnsigned_of_setu_ok (h : w + l ≤ 64) (ht : exec (.setu w l x v) s = .next t) (hok : t.err = 0b00#2) :
    fitsUnsigned w v = true := by
  by_contra hv
  rw [exec_setu_misfit h hv] at ht
  cases ht
  simp [ErrCode.code] at hok

theorem fitsSigned_of_sets_ok (h : w + l ≤ 64) (ht : exec (.sets w l x v) s = .next t) (hok : t.err = 0b00#2) :
    fitsSigned w v = true := by
  by_contra hv
  rw [exec_sets_misfit h hv] at ht
  cases ht
  simp [ErrCode.code] at hok

/-- Neither check of a SET looks at the word: a SET that succeeds once succeeds on every word, from every state. -/
theorem exec_set_of_ok (hf : f = .setu ∨ f = .sets) (ht : exec (f w l x v) s = .next t) (hok : t.err = 0b00#2)
    (x' : Word) (s' : State) :
    exec (f w l x' v) s' = .next (respond ⟨setField w l x' (v &&& mask w), .ok⟩ s') := by
  have h := legal_of_set_ok hf ht hok
  rcases hf with rfl | rfl
  · exact exec_setu_fits h (fitsUnsigned_of_setu_ok h ht hok)
  · exact exec_sets_fits h (fitsSigned_of_sets_ok h ht hok)

theorem set_result (hf : f = .setu ∨ f = .sets) (ht : exec (f w l x v) s = .next t) (hok : t.err = 0b00#2) :
    t.result = setField w l x (v &&& mask w) := by
  rw [exec_set_of_ok hf ht hok] at ht
  cases ht
  rfl

/-- A GET answers alike on two words that agree in its field. -/
theorem exec_get_congr (hg : g = .getu ∨ g = .gets) {x' : Word}
    (hfield : w + l ≤ 64 → getField w l x = getField w l x') :
    exec (g w l x v) s = exec (g w l x' v) s := by
  rcases Nat.lt_or_ge 64 (w + l) with h | h
  · have hg4 : g = .getu ∨ g = .gets ∨ g = .setu ∨ g = .sets := hg.imp_right .inl
    rw [exec_field_violation hg4 h, exec_field_violation hg4 h]
  · rcases hg with rfl | rfl
    · rw [exec_getu_legal h, exec_getu_legal h, hfield h]
    · rw [exec_gets_legal h, exec_gets_legal h, hfield h]

end Set

end Sys2Proof.Machine

namespace Sys2Proof.Proofs.Set

open Sys2Proof.Machine

/-- Settles O20: the three clauses are the three responses of R100, a fit being R80's expression. -/
theorem setuReplacesTheFieldOrRefusesTheValue : Obligations.SetuReplacesTheFieldOrRefusesTheValue := by
  refine ⟨fun c hop => decode_eq_of_fields hop rfl rfl rfl rfl,
    fun width lsb word value s => ⟨fun h hv => ?_, fun h h64 hv => ?_, fun h => ?_⟩⟩
  · refine ⟨setField width lsb word (value &&& mask width), ?_, fun i hi => getLsbD_setField_and_mask h hi⟩
    rw [exec_setu_fits h ((fitsUnsigned_iff value).2 hv), respond_ok]
  · have hmisfit : ¬ fitsUnsigned width value = true := by
      rw [fitsUnsigned_iff]
      omega
    exact exec_setu_misfit h hmisfit
  · exact exec_field_violation (f := .setu) (.inr (.inr (.inl rfl))) (by omega)

/-- Settles O21: the three clauses are the three responses of R101, a fit being R81's expression. -/
theorem setsReplacesTheFieldOrRefusesTheValue : Obligations.SetsReplacesTheFieldOrRefusesTheValue := by
  refine ⟨fun c hop => decode_eq_of_fields hop rfl rfl rfl rfl,
    fun width lsb word value s => ⟨fun h hv => ?_, fun h hv => ?_, fun h => ?_⟩⟩
  · refine ⟨setField width lsb word (value &&& mask width), ?_, fun i hi => getLsbD_setField_and_mask h hi⟩
    rw [exec_sets_fits h ((fitsSigned_iff_range width value).2 hv), respond_ok]
  · have hmisfit : ¬ fitsSigned width value = true := by
      rw [fitsSigned_iff_range]
      omega
    exact exec_sets_misfit h hmisfit
  · exact exec_field_violation (f := .sets) (.inr (.inr (.inr rfl))) (by omega)

/-- Settles O26: the GET reads the placed low bits; of a value that fits they are the value, unsigned, or its sign
extension is, signed. -/
theorem getReturnsWhatSetWrote : Obligations.GetReturnsWhatSetWrote := by
  intro width lsb word value other s t s' h
  have hw : width ≤ 64 := by omega
  have hread : getField width lsb (setField width lsb word (value &&& mask width)) = value &&& mask width :=
    getField_setField word _ h (and_mask_high hw value)
  refine ⟨fun ht hok => ⟨_, exec_getu_legal h, ?_, rfl⟩, fun ht hok => ⟨_, exec_gets_legal h, ?_, rfl⟩⟩
  · have hfits := fitsUnsigned_of_setu_ok h ht hok
    rw [respond_result, set_result (f := .setu) (.inl rfl) ht hok, hread]
    exact and_mask_of_high hw value ((fitsUnsigned_iff_bits hw value).1 hfits)
  · have hfits := fitsSigned_of_sets_ok h ht hok
    rw [respond_result, set_result (f := .sets) (.inr rfl) ht hok, hread]
    exact sext64_and_mask hw value hfits

/-- Settles O27: a SET's success does not depend on the word, and it leaves every bit of a disjoint field. -/
theorem disjointFieldsAreIndependent : Obligations.DisjointFieldsAreIndependent := by
  intro f g w1 l1 w2 l2 word v1 v2 other s a b hf hd ha haok
  have h1 := legal_of_set_ok hf ha haok
  refine ⟨fun hg hb hbok => ?_, fun hg => ?_⟩
  · have h2 := legal_of_set_ok hg hb hbok
    refine ⟨_, _, exec_set_of_ok hg hb hbok word s, rfl, exec_set_of_ok hf ha haok _ s, rfl, ?_⟩
    rw [set_result hg hb hbok, set_result hf ha haok]
    exact (setField_comm h1 h2 hd).symm
  · rw [set_result hf ha haok]
    exact exec_get_congr hg fun h2 => getField_setField_disjoint h1 h2 hd

/-- Settles O28: the second SET covers the bits of the first, and the bits a GET read are those already in the field. -/
theorem setOverwritesAndSetOfGetIsIdentity : Obligations.SetOverwritesAndSetOfGetIsIdentity := by
  refine ⟨fun f w l word v1 v2 s a b c hf ha haok hb hbok hc hcok => ?_, fun f g w l word other s a hfg h ha => ?_⟩
  · rw [set_result hf hb hbok, set_result hf ha haok, set_result hf hc hcok]
    exact setField_setField_same (legal_of_set_ok hf ha haok)
  · have hw : w ≤ 64 := by omega
    obtain ⟨rfl, rfl⟩ | ⟨rfl, rfl⟩ := hfg
    · rw [getu_result h ha]
      refine ⟨_, exec_setu_fits h (fitsUnsigned_getField hw), rfl, ?_⟩
      rw [respond_result, and_mask_of_high hw _ (getField_high hw), setField_getField h]
    · rw [gets_result h ha]
      refine ⟨_, exec_sets_fits h (fitsSigned_sext64 hw _ (getField_high hw)), rfl, ?_⟩
      rw [respond_result, sext64_getField_and_mask hw, setField_getField h]

end Sys2Proof.Proofs.Set

/-! PROOFS. Errors (60_exceptions.md): which outcome a command can have, what each error writes, and the invariant of the
registers that every edge keeps. -/

namespace Sys2Proof.Machine

/-! ### The outcomes of a command (R120, R122) -/

theorem ErrCode.code_injective : Function.Injective ErrCode.code := by
  intro a b
  cases a <;> cases b <;> decide

/-- R120's column "raised by", with the precondition of R122 told apart: a broken one is PRECONDITION's alone. -/
def CanAnswer (i : Instr) : ErrCode → Prop
  | .ok => legalCommand i = true
  | .overflow => legalCommand i = true ∧ (i.opcode = 0b100 ∨ i.opcode = 0b101)
  | .precondition => legalCommand i = false ∧ i.opcode ≤ 0b101
  | .illegal => legalCommand i = false ∧ (i.opcode = 0b110 ∨ i.opcode = 0b111)

theorem CanAnswer.of_legal {i : Instr} {e : ErrCode} (h : CanAnswer i e) (hl : legalCommand i = true) :
    e = .ok ∨ e = .overflow := by
  cases e <;> simp_all [CanAnswer]

theorem CanAnswer.of_not_legal {i : Instr} {e : ErrCode} (h : CanAnswer i e) (hl : legalCommand i = false) :
    e = .precondition ∨ e = .illegal := by
  cases e <;> simp_all [CanAnswer]

section Legal

variable {f : Nat → Nat → Word → Word → Instr} {w l : Nat} {x v : Word} {s : State}

theorem legalCommand_fits (hf : f = .fitsu ∨ f = .fitss) : legalCommand (f w l x v) = true ↔ w ≤ 64 := by
  rcases hf with rfl | rfl <;> simp [legalCommand, widthViolation_eq_false]

theorem legalCommand_field (hf : f = .getu ∨ f = .gets ∨ f = .setu ∨ f = .sets) :
    legalCommand (f w l x v) = true ↔ w + l ≤ 64 := by
  rcases hf with rfl | rfl | rfl | rfl <;> simp [legalCommand, fieldViolation_eq_false]

theorem exec_fits_of_not_legal (hf : f = .fitsu ∨ f = .fitss) (hl : legalCommand (f w l x v) = false) :
    exec (f w l x v) s = .next (respond (raise .precondition) s) := by
  rw [← Bool.not_eq_true, legalCommand_fits hf, not_le] at hl
  exact exec_fits_violation hf hl

theorem exec_field_of_not_legal (hf : f = .getu ∨ f = .gets ∨ f = .setu ∨ f = .sets)
    (hl : legalCommand (f w l x v) = false) :
    exec (f w l x v) s = .next (respond (raise .precondition) s) := by
  rw [← Bool.not_eq_true, legalCommand_field hf, not_le] at hl
  exact exec_field_violation hf hl

end Legal

section Answer

variable {i : Instr} {s t : State}

/-- A legal command succeeds, or is a SET whose value does not fit (R124). -/
theorem exec_of_legal (s : State) (hl : legalCommand i = true) :
    (∃ x, exec i s = .next (respond ⟨x, .ok⟩ s)) ∨
    ((i.opcode = 0b100 ∨ i.opcode = 0b101) ∧ exec i s = .next (respond (raise .overflow) s)) := by
  cases i with
  | fitsu w l x v => exact .inl ⟨_, exec_fitsu_legal ((legalCommand_fits (f := .fitsu) (by simp)).1 hl)⟩
  | fitss w l x v => exact .inl ⟨_, exec_fitss_legal ((legalCommand_fits (f := .fitss) (by simp)).1 hl)⟩
  | getu w l x v => exact .inl ⟨_, exec_getu_legal ((legalCommand_field (f := .getu) (by simp)).1 hl)⟩
  | gets w l x v => exact .inl ⟨_, exec_gets_legal ((legalCommand_field (f := .gets) (by simp)).1 hl)⟩
  | setu w l x v =>
    have h := (legalCommand_field (f := .setu) (by simp)).1 hl
    by_cases hv : fitsUnsigned w v = true
    · exact .inl ⟨_, exec_setu_fits h hv⟩
    · exact .inr ⟨.inl rfl, exec_setu_misfit h hv⟩
  | sets w l x v =>
    have h := (legalCommand_field (f := .sets) (by simp)).1 hl
    by_cases hv : fitsSigned w v = true
    · exact .inl ⟨_, exec_sets_fits h hv⟩
    · exact .inr ⟨.inr rfl, exec_sets_misfit h hv⟩
  | reserved110 w l x v => cases hl
  | reserved111 w l x v => cases hl

/-- A command that is not legal is one of the six operations with a broken precondition, or reserved (R121, R122). -/
theorem exec_of_not_legal (s : State) (hl : legalCommand i = false) :
    (i.opcode ≤ 0b101 ∧ exec i s = .next (respond (raise .precondition) s)) ∨
    ((i.opcode = 0b110 ∨ i.opcode = 0b111) ∧ exec i s = .next (respond (raise .illegal) s)) := by
  cases i with
  | fitsu w l x v => exact .inl ⟨by simp [Instr.opcode], exec_fits_of_not_legal (f := .fitsu) (by simp) hl⟩
  | fitss w l x v => exact .inl ⟨by simp [Instr.opcode], exec_fits_of_not_legal (f := .fitss) (by simp) hl⟩
  | getu w l x v => exact .inl ⟨by simp [Instr.opcode], exec_field_of_not_legal (f := .getu) (by simp) hl⟩
  | gets w l x v => exact .inl ⟨by simp [Instr.opcode], exec_field_of_not_legal (f := .gets) (by simp) hl⟩
  | setu w l x v => exact .inl ⟨by simp [Instr.opcode], exec_field_of_not_legal (f := .setu) (by simp) hl⟩
  | sets w l x v => exact .inl ⟨by simp [Instr.opcode], exec_field_of_not_legal (f := .sets) (by simp) hl⟩
  | reserved110 w l x v => exact .inr ⟨.inl rfl, rfl⟩
  | reserved111 w l x v => exact .inr ⟨.inr rfl, rfl⟩

/-- Everything a command can do: it answers once, with RESULT 0 on an error (R123), and each outcome is one R120 allows
it. -/
theorem exec_next_cases (h : exec i s = .next t) :
    ∃ r, t = respond r s ∧ (r.err ≠ .ok → r.result = 0#64) ∧ CanAnswer i r.err := by
  cases hl : legalCommand i with
  | true =>
    obtain ⟨x, hx⟩ | ⟨hop, hx⟩ := exec_of_legal s hl
    · exact ⟨_, Host.Outcome.next.inj (h.symm.trans hx), fun hne => absurd rfl hne, hl⟩
    · exact ⟨_, Host.Outcome.next.inj (h.symm.trans hx), fun _ => rfl, hl, hop⟩
  | false =>
    obtain ⟨hop, hx⟩ | ⟨hop, hx⟩ := exec_of_not_legal s hl
    · exact ⟨_, Host.Outcome.next.inj (h.symm.trans hx), fun _ => rfl, hl, hop⟩
    · exact ⟨_, Host.Outcome.next.inj (h.symm.trans hx), fun _ => rfl, hl, hop⟩

/-- R120's table read from the code in ERR. -/
theorem exec_next_of_err {e : ErrCode} (h : exec i s = .next t) (he : t.err = e.code) :
    CanAnswer i e ∧ (e ≠ .ok → t.result = 0#64) ∧ t.sticky = s.sticky ||| e.stickyMask := by
  obtain ⟨r, rfl, hzero, hcan⟩ := exec_next_cases h
  obtain rfl : r.err = e := ErrCode.code_injective he
  exact ⟨hcan, hzero, rfl⟩

theorem respond_ext {r r' : Response} (hres : (respond r s).result = (respond r' s).result)
    (herr : (respond r s).err = (respond r' s).err) : respond r s = respond r' s := by
  obtain ⟨x, e⟩ := r
  obtain ⟨x', e'⟩ := r'
  obtain rfl : x = x' := hres
  obtain rfl : e = e' := ErrCode.code_injective herr
  rfl

end Answer

/-! ### The sticky bits after a response (R29) -/

section Sticky

variable {r : Response} {s : State}

theorem respond_ovfS (r : Response) (s : State) : (respond r s).ovfS = (s.ovfS || r.err.code == 0b01#2) :=
  recordsError_ovfS r.err s.sticky

theorem respond_preS (r : Response) (s : State) : (respond r s).preS = (s.preS || r.err.code == 0b10#2) :=
  recordsError_preS r.err s.sticky

theorem respond_illS (r : Response) (s : State) : (respond r s).illS = (s.illS || r.err.code == 0b11#2) :=
  recordsError_illS r.err s.sticky

/-- OK and OVERFLOW are no fault of the host. -/
theorem respond_keeps_preS_illS (he : r.err = .ok ∨ r.err = .overflow) :
    (respond r s).preS = s.preS ∧ (respond r s).illS = s.illS := by
  rcases he with he | he <;> simp [respond_preS, respond_illS, he, ErrCode.code]

theorem respond_hostFault (he : r.err = .precondition ∨ r.err = .illegal) : (respond r s).HostFault := by
  rcases he with he | he
  · exact .inl (by simp [respond_preS, he, ErrCode.code])
  · exact .inr (by simp [respond_illS, he, ErrCode.code])

theorem resetEdge_coherent (s : State) : (resetEdge s).Coherent := by
  simp [State.Coherent]

/-- A response is coherent from any state: it writes RESULT, ERR and the sticky bit of ERR together. -/
theorem respond_coherent (hzero : r.err ≠ .ok → r.result = 0#64) : (respond r s).Coherent := by
  refine ⟨fun he => hzero fun hok => he ?_, fun he => ?_, fun he => ?_, fun he => ?_⟩
  · rw [respond_err, hok, ErrCode.code]
  · rw [respond_ovfS, Bool.or_eq_true, beq_iff_eq]
    exact .inr he
  · rw [respond_preS, Bool.or_eq_true, beq_iff_eq]
    exact .inr he
  · rw [respond_illS, Bool.or_eq_true, beq_iff_eq]
    exact .inr he

end Sticky

/-! ### Broken preconditions and misfits (R122, R124) -/

section Misfit

variable {f : Nat → Nat → Word → Word → Instr} {w l : Nat} {x v : Word} {s t : State}

theorem err_of_field_violation (hf : f = .getu ∨ f = .gets ∨ f = .setu ∨ f = .sets) (h : 64 < w + l)
    (ht : exec (f w l x v) s = .next t) : t.err = 0b10#2 := by
  rw [exec_field_violation hf h] at ht
  cases ht
  rfl

theorem err_ne_precondition_of_legal {i : Instr} (hl : legalCommand i = true) (ht : exec i s = .next t) :
    t.err ≠ 0b10#2 := by
  intro he
  obtain ⟨⟨hnot, -⟩, -⟩ := exec_next_of_err (e := .precondition) ht he
  exact Bool.false_ne_true (hnot.symm.trans hl)

theorem fitsUnsigned_eq_false_iff (h : w ≤ 64) : fitsUnsigned w v = false ↔ w < 64 ∧ 2 ^ w ≤ v.toNat := by
  rw [← Bool.not_eq_true, fitsUnsigned_iff]
  omega

theorem fitsSigned_eq_false_iff (h : w ≤ 64) :
    fitsSigned w v = false ↔ (w = 0 ∧ v.toInt ≠ 0) ∨
      (0 < w ∧ w < 64 ∧ (v.toInt < -(2 : Int) ^ (w - 1) ∨ (2 : Int) ^ (w - 1) ≤ v.toInt)) := by
  rw [← Bool.not_eq_true, fitsSigned_iff_range]
  omega

theorem setu_overflow_iff (h : w + l ≤ 64) (ht : exec (.setu w l x v) s = .next t) :
    t.err = 0b01#2 ↔ w < 64 ∧ 2 ^ w ≤ v.toNat :=
  (setu_err_eq_overflow_iff h ht).trans (fitsUnsigned_eq_false_iff (by omega))

theorem sets_overflow_iff (h : w + l ≤ 64) (ht : exec (.sets w l x v) s = .next t) :
    t.err = 0b01#2 ↔ (w = 0 ∧ v.toInt ≠ 0) ∨
      (0 < w ∧ w < 64 ∧ (v.toInt < -(2 : Int) ^ (w - 1) ∨ (2 : Int) ^ (w - 1) ≤ v.toInt)) :=
  (sets_err_eq_overflow_iff h ht).trans (fitsSigned_eq_false_iff (by omega))

end Misfit

/-! ### No edge stops the block, alone or among others (R127, R134) -/

theorem exists_exec_next (i : Instr) (s : State) : ∃ t, exec i s = .next t := by
  obtain ⟨r, hr⟩ := exec_eq_respond i
  exact ⟨_, hr s⟩

theorem exists_step_next (s : State) : ∃ t, step s = .next t := by
  cases hi : nextInput s with
  | reset => exact ⟨_, by rw [step, hi]⟩
  | idle => exact ⟨_, by rw [step, hi]⟩
  | cmd c =>
    obtain ⟨t, ht⟩ := exists_exec_next (decode c) (advanceHost s)
    exact ⟨t, by rw [step, hi]; exact ht⟩

theorem stepInstances_cons {s t : State} {ss ts : List State} (hs : step s = .next t)
    (hss : stepInstances ss = .next ts) : stepInstances (s :: ss) = .next (t :: ts) := by
  rw [stepInstances, hs, hss]

/-- The product of the single instances: next states stand in the places of the states they come from. -/
theorem exists_stepInstances_next (ss : List State) :
    ∃ ts, stepInstances ss = .next ts ∧ List.Forall₂ (fun s t => step s = .next t) ss ts := by
  induction ss with
  | nil => exact ⟨[], rfl, .nil⟩
  | cons s ss ih =>
    obtain ⟨t, ht⟩ := exists_step_next s
    obtain ⟨ts, hts, hall⟩ := ih
    exact ⟨t :: ts, stepInstances_cons ht hts, .cons ht hall⟩

end Sys2Proof.Machine

namespace Sys2Proof.Proofs.Exceptions

open Sys2Proof.Machine

/-- Settles O37: a reset edge leaves no error, an idle edge leaves the registers of the invariant, and a command writes
them coherent. -/
theorem everyStepKeepsTheRegistersCoherent : Obligations.EveryStepKeepsTheRegistersCoherent := by
  intro s t hs hstep
  obtain ⟨-, rfl⟩ | ⟨-, rfl⟩ | ⟨c, -, rfl⟩ := step_next_cases hstep
  · exact resetEdge_coherent _
  · exact hs
  · obtain ⟨r, hr, hzero, -⟩ := exec_next_cases (exec_decode c (advanceHost s))
    rw [hr]
    exact respond_coherent hzero

/-- Settles O7: a command answers, and so does an edge of each of the three inputs. -/
theorem noCommandAndNoEdgeStopsTheBlock : Obligations.NoCommandAndNoEdgeStopsTheBlock :=
  ⟨exists_exec_next, exists_step_next⟩

/-- Settles O10: the RESULT column of R120 for the three errors. -/
theorem errorsAnswerZero : Obligations.ErrorsAnswerZero := by
  intro i s t h herr
  have hzero {e : ErrCode} (he : t.err = e.code) (hne : e ≠ .ok) : t.result = 0#64 := by
    obtain ⟨-, hresult, -⟩ := exec_next_of_err h he
    exact hresult hne
  rcases herr with he | he | he
  · exact hzero (e := .overflow) he nofun
  · exact hzero (e := .precondition) he nofun
  · exact hzero (e := .illegal) he nofun

/-- Settles O11: R120's table row by row; a response is RESULT and ERR, which with the old state fix the next one. -/
theorem errorCodesAreRaisedByTheirOpcodesOnly : Obligations.ErrorCodesAreRaisedByTheirOpcodesOnly := by
  refine ⟨fun i s t h => ⟨fun he => ?_, fun he => ?_, fun he => ?_, fun he => ?_⟩, ?_⟩
  · obtain ⟨-, -, hsticky⟩ := exec_next_of_err (e := .ok) h he
    exact hsticky.trans BitVec.or_zero
  · obtain ⟨⟨-, hop⟩, hzero, hsticky⟩ := exec_next_of_err (e := .overflow) h he
    exact ⟨hop, hzero nofun, hsticky⟩
  · obtain ⟨⟨-, hop⟩, hzero, hsticky⟩ := exec_next_of_err (e := .precondition) h he
    exact ⟨hop, hzero nofun, hsticky⟩
  · obtain ⟨⟨-, hop⟩, hzero, hsticky⟩ := exec_next_of_err (e := .illegal) h he
    exact ⟨hop, hzero nofun, hsticky⟩
  · intro i j s t u ht hu hres herr
    obtain ⟨r, rfl, -⟩ := exec_next_cases ht
    obtain ⟨r', rfl, -⟩ := exec_next_cases hu
    exact respond_ext hres herr

/-- Settles O12: the decoder's two reserved rows, each of which answers `raise .illegal`. -/
theorem reservedOpcodesAnswerIllegal : Obligations.ReservedOpcodesAnswerIllegal :=
  ⟨fun _ hop => decode_eq_of_fields hop rfl rfl rfl rfl, fun _ hop => decode_eq_of_fields hop rfl rfl rfl rfl,
    fun _ _ _ _ _ => ⟨rfl, rfl⟩⟩

/-- Settles O13: a broken precondition is PRECONDITION's response; with it met the command is legal, and PRECONDITION is
no answer of a legal command. -/
theorem brokenPreconditionAnswersPrecondition : Obligations.BrokenPreconditionAnswersPrecondition := by
  refine ⟨?_, ?_, fun s h => .inl h⟩
  · rintro f width lsb word value s (⟨hf, h⟩ | ⟨hf, h⟩)
    · exact exec_fits_violation hf h
    · exact exec_field_violation hf (by omega)
  · rintro f width lsb word value s t (⟨hf, h⟩ | ⟨hf, h⟩) ht
    · exact err_ne_precondition_of_legal ((legalCommand_fits hf).2 h) ht
    · exact err_ne_precondition_of_legal ((legalCommand_field hf).2 h) ht

/-- Settles O14: OVERFLOW of a legal SET is the failure of its fits predicate, a broken precondition answers PRECONDITION,
and the other opcodes are not among those that raise OVERFLOW. -/
theorem overflowIsRaisedExactlyByMisfits : Obligations.OverflowIsRaisedExactlyByMisfits := by
  refine ⟨fun _ _ _ _ _ _ h ht => setu_overflow_iff h ht, fun _ _ _ _ _ _ h ht => sets_overflow_iff h ht, ?_, ?_⟩
  · intro f width lsb word value s t hf h ht
    rw [err_of_field_violation (.inr (.inr hf)) h ht]
    decide
  · intro f width lsb word value s t hf ht he
    obtain ⟨⟨-, hop⟩, -⟩ := exec_next_of_err (e := .overflow) ht he
    rcases hf with rfl | rfl | rfl | rfl <;> simp [Instr.opcode] at hop

/-- Settles O15: a reserved opcode's response looks at no operand, and a SET's fit is asked of legal fields only. -/
theorem oneErrorInPriorityOrder : Obligations.OneErrorInPriorityOrder := by
  refine ⟨?_, fun f _ _ _ _ _ _ hf h ht => err_of_field_violation (.inr (.inr hf)) h ht,
    fun _ _ _ _ _ _ h hw hv ht => (setu_overflow_iff h ht).2 ⟨hw, hv⟩,
    fun _ _ _ _ _ _ h hv ht => (sets_overflow_iff h ht).2 hv,
    fun _ _ ht => err_of_field_violation (f := .setu) (by simp) (by decide) ht⟩
  rintro f width lsb word value s t (rfl | rfl) ht
  · cases ht
    rfl
  · cases ht
    rfl

/-- Settles O38: a legal command answers OK or OVERFLOW, any other PRECONDITION or ILLEGAL. -/
theorem legalCommandsNeverFaultTheHost : Obligations.LegalCommandsNeverFaultTheHost := by
  intro i s t h
  obtain ⟨r, rfl, -, hcan⟩ := exec_next_cases h
  refine ⟨fun hl => ?_, fun hl => respond_hostFault (hcan.of_not_legal hl)⟩
  obtain ⟨hpre, hill⟩ := respond_keeps_preS_illS (s := s) (hcan.of_legal hl)
  exact ⟨hpre, hill, by rw [State.HostFault, hpre, hill]⟩

/-- Settles O47: the product of the instances' own steps, read at each place. -/
theorem instancesStepIndependently : Obligations.InstancesStepIndependently := by
  intro ss
  obtain ⟨ts, hts, hall⟩ := exists_stepInstances_next ss
  refine ⟨ts, hts, hall.length_eq.symm, fun k s hk => ?_⟩
  obtain ⟨hlt, rfl⟩ := List.getElem?_eq_some_iff.1 hk
  have hlt' : k < ts.length := hall.length_eq ▸ hlt
  exact ⟨ts[k], List.getElem?_eq_getElem hlt', hall.get hlt hlt'⟩

end Sys2Proof.Proofs.Exceptions

/-! PROOFS. Reset and hazards (70_reset_and_hazards.md): what a reset edge leaves, what a run of idle cycles keeps, and the
operand `RES` after it. -/

namespace Sys2Proof.Machine

/-! ### The reset edge (R140, R142) -/

/-- A reset edge looks at no register. -/
theorem step_of_reset_eq {s : State} {h : HostCycle} {rest : List HostCycle} (hs : s.host = h :: rest)
    (hr : h.rstN = false) : step s = .next { State.reset with host := rest } :=
  step_of_reset hs hr

/-! ### Runs of idle cycles (R30, R136, R146) -/

/-- Every edge uses up one cycle of the host. -/
theorem step_host {s t : State} (h : step s = .next t) : t.host = s.host.tail := by
  obtain ⟨-, rfl⟩ | ⟨-, rfl⟩ | ⟨c, -, rfl⟩ := step_next_cases h <;> rfl

/-- A second idle edge finds RSP_VALID at 0 already, so all of them together are one. -/
theorem run_of_idles {rest idles : List HostCycle} :
    ∀ {s : State}, idles ≠ [] → (∀ h ∈ idles, h.rstN = true ∧ h.cmdValid = false) → s.host = idles ++ rest →
      core.run idles.length s = .next (idleEdge { s with host := rest }) := by
  induction idles with
  | nil => exact fun hne => absurd rfl hne
  | cons h idles ih =>
    intro s _ hidle hs
    obtain ⟨⟨hr, hv⟩, hidles⟩ := List.forall_mem_cons.1 hidle
    rw [List.length_cons, run_succ (step_of_idle hs hr hv)]
    by_cases hne : idles = []
    · subst hne
      rfl
    · exact ih hne hidles rfl

/-- Over idle cycles, none at all among them, RESULT stays and the host comes to its next cycle. -/
theorem result_host_of_run_idles {idles rest : List HostCycle} {s t : State}
    (hidle : ∀ h ∈ idles, h.rstN = true ∧ h.cmdValid = false) (hs : s.host = idles ++ rest)
    (ht : core.run idles.length s = .next t) : t.result = s.result ∧ t.host = rest := by
  by_cases hne : idles = []
  · subst hne
    cases ht
    exact ⟨rfl, hs⟩
  · rw [run_of_idles hne hidle hs] at ht
    cases ht
    exact ⟨rfl, rfl⟩

/-! ### The operand `RES` (R144) -/

theorem HostCycle.command_of_res {h : HostCycle} (hw : h.cmdWord = .rspResult) (hv : h.cmdValue = .rspResult) (r : Word) :
    h.command r = ⟨h.cmdCtl, r, r⟩ := by
  rw [HostCycle.command, hw, hv]
  rfl

end Sys2Proof.Machine

namespace Sys2Proof.Proofs.Reset

open Sys2Proof.Machine

/-- Settles O43: the cycles between the first edge and the command keep the RESULT that edge left, so the command samples
it. -/
theorem resOperandIsTheLastResult : Obligations.ResOperandIsTheLastResult := by
  intro h1 h2 idles rest s a b hs hidle hr hv hword hvalue ha hb
  have hahost : a.host = idles ++ h2 :: rest := (step_host ha).trans (congrArg List.tail hs)
  have hrun : core.run idles.length a = .next b := (run_succ ha _).symm.trans hb
  obtain ⟨hresult, hbhost⟩ := result_host_of_run_idles hidle hahost hrun
  refine ⟨?_, fun hreset => ?_⟩
  · rw [step_of_accepting hbhost hr hv, HostCycle.command_of_res hword hvalue, hresult]
  · rw [step_of_reset_eq hs hreset] at ha
    cases ha
    rfl

/-- Settles O2: the step of a reset cycle, and that an edge which is no reset keeps every sticky bit. -/
theorem resetEdgeWritesResetValuesAndAloneClearsSticky :
    Obligations.ResetEdgeWritesResetValuesAndAloneClearsSticky := by
  refine ⟨fun _ _ _ hs hr => step_of_reset hs hr, fun s t i hstep hset hclear => ?_⟩
  by_cases hi : nextInput s = .reset
  · exact nextInput_reset_iff.1 hi
  · exact absurd (hclear.symm.trans (step_keeps_sticky_bit hstep hi hset)) Bool.false_ne_true

/-- Settles O42: a run of idle cycles is one idle edge. -/
theorem idleCyclesKeepEverythingButRspValid : Obligations.IdleCyclesKeepEverythingButRspValid :=
  fun _ _ _ hne hidle hs => run_of_idles hne hidle hs

/-- Settles O41: a reset edge answers the same state from any two, and from power-up. -/
theorem resetErasesThePowerUpState : Obligations.ResetErasesThePowerUpState :=
  ⟨fun _ _ _ _ hs1 hs2 hr => (step_of_reset_eq hs1 hr).trans (step_of_reset_eq hs2 hr).symm,
    fun _ _ hr => step_of_reset_eq rfl hr⟩

end Sys2Proof.Proofs.Reset

/-! PROOFS. The edge where the host drives nothing more (R41, log entry 2). -/

namespace Sys2Proof.Proofs.Other

open Sys2Proof.Machine

/-- Settles O4: with no host cycle left the step is the idle edge, and the host stays with none. -/
theorem silentHostLeavesTheBlockIdle : Obligations.SilentHostLeavesTheBlockIdle := by
  intro s hs
  rw [step_of_silent hs, idleEdge, hs]

end Sys2Proof.Proofs.Other
